-- ==== Sys2Proof/Word.lean ====
section
/-! DEFINITION. The word types of coolboy CORE (00_scope.md R5, R6). -/

namespace Sys2Proof

/-- `u8` (R6): the width XLEN8 of A, F, B, C, D, E, H, L and of a memory byte. -/
abbrev Byte := BitVec 8

/-- `u16` (R6): the width XLEN16 of SP, PC, register pairs and addresses. -/
abbrev Word := BitVec 16

end Sys2Proof
end

