-- ==== Sys2Proof/Machine/Bits.lean ====
section
/-! DEFINITION. Concatenation, halves and extension (00_scope.md R6, R7). -/

namespace Sys2Proof.Machine

/-- `{h, l}` of two bytes (R6): `h * 256 + l`. -/
def cat (h l : Byte) : Word := h ++ l

/-- `hi(v)` is `v[15:8]` (R6). -/
def hi (v : Word) : Byte := v.extractLsb' 8 8

/-- `lo(v)` is `v[7:0]` (R6). -/
def lo (v : Word) : Byte := v.extractLsb' 0 8

/-- `zext_16(b)` (R7). -/
def zext (b : Byte) : Word := b.setWidth 16

/-- `sext_16(b)` (R7): the displacement of `JR cc,e` (R86). -/
def sext (b : Byte) : Word := b.signExtend 16

end Sys2Proof.Machine
end

