-- ==== Sys2Proof/Syntax.lean ====
section
/-! DEFINITION. The instructions of coolboy CORE: one constructor per row of spec/opcode_table.json, and the
classes of 30_encoding.md R88. -/

namespace Sys2Proof

/-- The seven 8-bit registers an instruction can name (R21, R22). -/
inductive Reg8 where
  | A
  | B
  | C
  | D
  | E
  | H
  | L
  deriving DecidableEq, Repr

/-- The register pairs an instruction can name (R22, R23). -/
inductive Pair where
  | BC
  | DE
  | HL
  deriving DecidableEq, Repr

/-- The conditions of `JR cc,e` and `RET cc` (R87). -/
inductive Cond where
  | NZ
  | Z
  | NC
  | C
  deriving DecidableEq, Repr

/-- The instructions, in the order of spec/opcode_table.json (R88, R89). `nn` is a 16-bit immediate, `n` an
8-bit one, `e` the displacement byte of a relative jump (R81). A constructor is named after its row, with
`at` for the parentheses of a memory operand. -/
inductive Instr where
  /-- `NOP`, R190. -/
  | nop
  /-- `LD BC,nn`, R151. -/
  | ld_BC_nn (nn : Word)
  /-- `LD (BC),A`, R153. -/
  | ld_atBC_A
  /-- `DEC B`, R170. -/
  | dec_B
  /-- `LD B,n`, R150. -/
  | ld_B_n (n : Byte)
  /-- `DEC BC`, R171. -/
  | dec_BC
  /-- `DEC C`, R170. -/
  | dec_C
  /-- `LD C,n`, R150. -/
  | ld_C_n (n : Byte)
  /-- `LD DE,nn`, R151. -/
  | ld_DE_nn (nn : Word)
  /-- `LD (DE),A`, R153. -/
  | ld_atDE_A
  /-- `DEC D`, R170. -/
  | dec_D
  /-- `LD D,n`, R150. -/
  | ld_D_n (n : Byte)
  /-- `DEC DE`, R171. -/
  | dec_DE
  /-- `DEC E`, R170. -/
  | dec_E
  /-- `LD E,n`, R150. -/
  | ld_E_n (n : Byte)
  /-- `JR NZ,e`, R142. -/
  | jr_NZ_e (e : Byte)
  /-- `LD HL,nn`, R151. -/
  | ld_HL_nn (nn : Word)
  /-- `DEC H`, R170. -/
  | dec_H
  /-- `LD H,n`, R150. -/
  | ld_H_n (n : Byte)
  /-- `JR Z,e`, R142. -/
  | jr_Z_e (e : Byte)
  /-- `DEC HL`, R171. -/
  | dec_HL
  /-- `DEC L`, R170. -/
  | dec_L
  /-- `LD L,n`, R150. -/
  | ld_L_n (n : Byte)
  /-- `JR NC,e`, R142. -/
  | jr_NC_e (e : Byte)
  /-- `LD (HL-),A`, R155. -/
  | ld_atHLdec_A
  /-- `JR C,e`, R142. -/
  | jr_C_e (e : Byte)
  /-- `DEC A`, R170. -/
  | dec_A
  /-- `LD A,n`, R150. -/
  | ld_A_n (n : Byte)
  /-- `LD B,B`, R152. -/
  | ld_B_B
  /-- `LD B,C`, R152. -/
  | ld_B_C
  /-- `LD B,D`, R152. -/
  | ld_B_D
  /-- `LD B,E`, R152. -/
  | ld_B_E
  /-- `LD B,H`, R152. -/
  | ld_B_H
  /-- `LD B,L`, R152. -/
  | ld_B_L
  /-- `LD B,A`, R152. -/
  | ld_B_A
  /-- `LD C,B`, R152. -/
  | ld_C_B
  /-- `LD C,C`, R152. -/
  | ld_C_C
  /-- `LD C,D`, R152. -/
  | ld_C_D
  /-- `LD C,E`, R152. -/
  | ld_C_E
  /-- `LD C,H`, R152. -/
  | ld_C_H
  /-- `LD C,L`, R152. -/
  | ld_C_L
  /-- `LD C,A`, R152. -/
  | ld_C_A
  /-- `LD D,B`, R152. -/
  | ld_D_B
  /-- `LD D,C`, R152. -/
  | ld_D_C
  /-- `LD D,D`, R152. -/
  | ld_D_D
  /-- `LD D,E`, R152. -/
  | ld_D_E
  /-- `LD D,H`, R152. -/
  | ld_D_H
  /-- `LD D,L`, R152. -/
  | ld_D_L
  /-- `LD D,A`, R152. -/
  | ld_D_A
  /-- `LD E,B`, R152. -/
  | ld_E_B
  /-- `LD E,C`, R152. -/
  | ld_E_C
  /-- `LD E,D`, R152. -/
  | ld_E_D
  /-- `LD E,E`, R152. -/
  | ld_E_E
  /-- `LD E,H`, R152. -/
  | ld_E_H
  /-- `LD E,L`, R152. -/
  | ld_E_L
  /-- `LD E,A`, R152. -/
  | ld_E_A
  /-- `LD H,B`, R152. -/
  | ld_H_B
  /-- `LD H,C`, R152. -/
  | ld_H_C
  /-- `LD H,D`, R152. -/
  | ld_H_D
  /-- `LD H,E`, R152. -/
  | ld_H_E
  /-- `LD H,H`, R152. -/
  | ld_H_H
  /-- `LD H,L`, R152. -/
  | ld_H_L
  /-- `LD H,A`, R152. -/
  | ld_H_A
  /-- `LD L,B`, R152. -/
  | ld_L_B
  /-- `LD L,C`, R152. -/
  | ld_L_C
  /-- `LD L,D`, R152. -/
  | ld_L_D
  /-- `LD L,E`, R152. -/
  | ld_L_E
  /-- `LD L,H`, R152. -/
  | ld_L_H
  /-- `LD L,L`, R152. -/
  | ld_L_L
  /-- `LD L,A`, R152. -/
  | ld_L_A
  /-- `LD (HL),A`, R154. -/
  | ld_atHL_A
  /-- `LD A,B`, R152. -/
  | ld_A_B
  /-- `LD A,C`, R152. -/
  | ld_A_C
  /-- `LD A,D`, R152. -/
  | ld_A_D
  /-- `LD A,E`, R152. -/
  | ld_A_E
  /-- `LD A,H`, R152. -/
  | ld_A_H
  /-- `LD A,L`, R152. -/
  | ld_A_L
  /-- `LD A,A`, R152. -/
  | ld_A_A
  /-- `AND B`, R174. -/
  | and_B
  /-- `AND C`, R174. -/
  | and_C
  /-- `AND D`, R174. -/
  | and_D
  /-- `AND E`, R174. -/
  | and_E
  /-- `AND H`, R174. -/
  | and_H
  /-- `AND L`, R174. -/
  | and_L
  /-- `AND A`, R174. -/
  | and_A
  /-- `XOR B`, R172. -/
  | xor_B
  /-- `XOR C`, R172. -/
  | xor_C
  /-- `XOR D`, R172. -/
  | xor_D
  /-- `XOR E`, R172. -/
  | xor_E
  /-- `XOR H`, R172. -/
  | xor_H
  /-- `XOR L`, R172. -/
  | xor_L
  /-- `XOR A`, R172. -/
  | xor_A
  /-- `CP B`, R176. -/
  | cp_B
  /-- `CP C`, R176. -/
  | cp_C
  /-- `CP D`, R176. -/
  | cp_D
  /-- `CP E`, R176. -/
  | cp_E
  /-- `CP H`, R176. -/
  | cp_H
  /-- `CP L`, R176. -/
  | cp_L
  /-- `CP A`, R176. -/
  | cp_A
  /-- `RET NZ`, R145. -/
  | ret_NZ
  /-- `JP nn`, R141. -/
  | jp_nn (nn : Word)
  /-- `RET Z`, R145. -/
  | ret_Z
  /-- `RET`, R144. -/
  | ret
  /-- `CALL nn`, R143. -/
  | call_nn (nn : Word)
  /-- `RET NC`, R145. -/
  | ret_NC
  /-- `RET C`, R145. -/
  | ret_C
  /-- `LDH (n),A`, R156. -/
  | ldh_n_A (n : Byte)
  /-- `AND n`, R175. -/
  | and_n (n : Byte)
  /-- `XOR n`, R173. -/
  | xor_n (n : Byte)
  /-- `LDH A,(n)`, R157. -/
  | ldh_A_n (n : Byte)
  /-- `DI`, R191. -/
  | di
  /-- `EI`, R192. -/
  | ei
  /-- `CP n`, R177. -/
  | cp_n (n : Byte)
  deriving DecidableEq, Repr

/-- The classes of R88 with their operands: one constructor per row of R88's table, the two rows of
`LD (rr),A` (R153, R154) together. -/
inductive Form where
  | nop
  | ldRRnn (p : Pair) (nn : Word)
  | ldAtRRA (p : Pair)
  | decRR (p : Pair)
  | decR (r : Reg8)
  | ldRn (r : Reg8) (n : Byte)
  | jr (c : Cond) (e : Byte)
  | ldAtHLdecA
  /-- `LD r,r'`: the destination first. -/
  | ldRR (r r' : Reg8)
  | andR (r : Reg8)
  | xorR (r : Reg8)
  | cpR (r : Reg8)
  | retCc (c : Cond)
  | jp (nn : Word)
  | ret
  | call (nn : Word)
  | ldhNA (n : Byte)
  | andN (n : Byte)
  | xorN (n : Byte)
  | ldhAN (n : Byte)
  | di
  | cpN (n : Byte)
  | ei
  deriving DecidableEq, Repr

end Sys2Proof
end

