-- ==== Sys2Proof/Decode.lean ====
section
/-! DEFINITION. The decoder, total on any bytes (30_encoding.md R80, R81, R88 to R93), and the encoder, written
from the bit patterns of R88. -/

namespace Sys2Proof

/-- A slot of the dispatch table (R93): the instruction, or the instruction awaiting its operand bytes, by
format (R81). -/
inductive OpEntry where
  /-- Format OP. -/
  | op (i : Instr)
  /-- Formats OP_N and OP_E: one operand byte. -/
  | opN (f : Byte → Instr)
  /-- Format OP_NN: two operand bytes, the low one first. -/
  | opNN (f : Word → Instr)

/-- The 256-entry dispatch table (R93): a byte with no row is unimplemented (R90). -/
def lookup (op : Byte) : Option OpEntry :=
  match op.toNat with
  | 0x00 => some (.op .nop)
  | 0x01 => some (.opNN .ld_BC_nn)
  | 0x02 => some (.op .ld_atBC_A)
  | 0x05 => some (.op .dec_B)
  | 0x06 => some (.opN .ld_B_n)
  | 0x0B => some (.op .dec_BC)
  | 0x0D => some (.op .dec_C)
  | 0x0E => some (.opN .ld_C_n)
  | 0x11 => some (.opNN .ld_DE_nn)
  | 0x12 => some (.op .ld_atDE_A)
  | 0x15 => some (.op .dec_D)
  | 0x16 => some (.opN .ld_D_n)
  | 0x1B => some (.op .dec_DE)
  | 0x1D => some (.op .dec_E)
  | 0x1E => some (.opN .ld_E_n)
  | 0x20 => some (.opN .jr_NZ_e)
  | 0x21 => some (.opNN .ld_HL_nn)
  | 0x25 => some (.op .dec_H)
  | 0x26 => some (.opN .ld_H_n)
  | 0x28 => some (.opN .jr_Z_e)
  | 0x2B => some (.op .dec_HL)
  | 0x2D => some (.op .dec_L)
  | 0x2E => some (.opN .ld_L_n)
  | 0x30 => some (.opN .jr_NC_e)
  | 0x32 => some (.op .ld_atHLdec_A)
  | 0x38 => some (.opN .jr_C_e)
  | 0x3D => some (.op .dec_A)
  | 0x3E => some (.opN .ld_A_n)
  | 0x40 => some (.op .ld_B_B)
  | 0x41 => some (.op .ld_B_C)
  | 0x42 => some (.op .ld_B_D)
  | 0x43 => some (.op .ld_B_E)
  | 0x44 => some (.op .ld_B_H)
  | 0x45 => some (.op .ld_B_L)
  | 0x47 => some (.op .ld_B_A)
  | 0x48 => some (.op .ld_C_B)
  | 0x49 => some (.op .ld_C_C)
  | 0x4A => some (.op .ld_C_D)
  | 0x4B => some (.op .ld_C_E)
  | 0x4C => some (.op .ld_C_H)
  | 0x4D => some (.op .ld_C_L)
  | 0x4F => some (.op .ld_C_A)
  | 0x50 => some (.op .ld_D_B)
  | 0x51 => some (.op .ld_D_C)
  | 0x52 => some (.op .ld_D_D)
  | 0x53 => some (.op .ld_D_E)
  | 0x54 => some (.op .ld_D_H)
  | 0x55 => some (.op .ld_D_L)
  | 0x57 => some (.op .ld_D_A)
  | 0x58 => some (.op .ld_E_B)
  | 0x59 => some (.op .ld_E_C)
  | 0x5A => some (.op .ld_E_D)
  | 0x5B => some (.op .ld_E_E)
  | 0x5C => some (.op .ld_E_H)
  | 0x5D => some (.op .ld_E_L)
  | 0x5F => some (.op .ld_E_A)
  | 0x60 => some (.op .ld_H_B)
  | 0x61 => some (.op .ld_H_C)
  | 0x62 => some (.op .ld_H_D)
  | 0x63 => some (.op .ld_H_E)
  | 0x64 => some (.op .ld_H_H)
  | 0x65 => some (.op .ld_H_L)
  | 0x67 => some (.op .ld_H_A)
  | 0x68 => some (.op .ld_L_B)
  | 0x69 => some (.op .ld_L_C)
  | 0x6A => some (.op .ld_L_D)
  | 0x6B => some (.op .ld_L_E)
  | 0x6C => some (.op .ld_L_H)
  | 0x6D => some (.op .ld_L_L)
  | 0x6F => some (.op .ld_L_A)
  | 0x77 => some (.op .ld_atHL_A)
  | 0x78 => some (.op .ld_A_B)
  | 0x79 => some (.op .ld_A_C)
  | 0x7A => some (.op .ld_A_D)
  | 0x7B => some (.op .ld_A_E)
  | 0x7C => some (.op .ld_A_H)
  | 0x7D => some (.op .ld_A_L)
  | 0x7F => some (.op .ld_A_A)
  | 0xA0 => some (.op .and_B)
  | 0xA1 => some (.op .and_C)
  | 0xA2 => some (.op .and_D)
  | 0xA3 => some (.op .and_E)
  | 0xA4 => some (.op .and_H)
  | 0xA5 => some (.op .and_L)
  | 0xA7 => some (.op .and_A)
  | 0xA8 => some (.op .xor_B)
  | 0xA9 => some (.op .xor_C)
  | 0xAA => some (.op .xor_D)
  | 0xAB => some (.op .xor_E)
  | 0xAC => some (.op .xor_H)
  | 0xAD => some (.op .xor_L)
  | 0xAF => some (.op .xor_A)
  | 0xB8 => some (.op .cp_B)
  | 0xB9 => some (.op .cp_C)
  | 0xBA => some (.op .cp_D)
  | 0xBB => some (.op .cp_E)
  | 0xBC => some (.op .cp_H)
  | 0xBD => some (.op .cp_L)
  | 0xBF => some (.op .cp_A)
  | 0xC0 => some (.op .ret_NZ)
  | 0xC3 => some (.opNN .jp_nn)
  | 0xC8 => some (.op .ret_Z)
  | 0xC9 => some (.op .ret)
  | 0xCD => some (.opNN .call_nn)
  | 0xD0 => some (.op .ret_NC)
  | 0xD8 => some (.op .ret_C)
  | 0xE0 => some (.opN .ldh_n_A)
  | 0xE6 => some (.opN .and_n)
  | 0xEE => some (.opN .xor_n)
  | 0xF0 => some (.opN .ldh_A_n)
  | 0xF3 => some (.op .di)
  | 0xFB => some (.op .ei)
  | 0xFE => some (.opN .cp_n)
  | _ => none

/-- Why a byte sequence is not an instruction. -/
inductive DecodeError where
  /-- There is no byte. -/
  | empty
  /-- The first byte has no handler (R90). -/
  | unimplemented (op : Byte)
  /-- An operand byte is missing (R81). -/
  | truncated (op : Byte)
  deriving DecidableEq, Repr

/-- Decodes one instruction from the front of a byte sequence and answers what is left (R80, R81). -/
def decode : List Byte → Except DecodeError (Instr × List Byte)
  | [] => .error .empty
  | op :: rest =>
    match lookup op with
    | none => .error (.unimplemented op)
    | some (.op i) => .ok (i, rest)
    | some (.opN f) =>
      match rest with
      | n :: rest' => .ok (f n, rest')
      | [] => .error (.truncated op)
    | some (.opNN f) =>
      match rest with
      | low :: high :: rest' => .ok (f (Machine.cat high low), rest')
      | [_] => .error (.truncated op)
      | [] => .error (.truncated op)

/-- The class and the operands of an instruction (R88). -/
def Instr.form : Instr → Form
  | .nop => .nop
  | .ld_BC_nn nn => .ldRRnn .BC nn
  | .ld_atBC_A => .ldAtRRA .BC
  | .dec_B => .decR .B
  | .ld_B_n n => .ldRn .B n
  | .dec_BC => .decRR .BC
  | .dec_C => .decR .C
  | .ld_C_n n => .ldRn .C n
  | .ld_DE_nn nn => .ldRRnn .DE nn
  | .ld_atDE_A => .ldAtRRA .DE
  | .dec_D => .decR .D
  | .ld_D_n n => .ldRn .D n
  | .dec_DE => .decRR .DE
  | .dec_E => .decR .E
  | .ld_E_n n => .ldRn .E n
  | .jr_NZ_e e => .jr .NZ e
  | .ld_HL_nn nn => .ldRRnn .HL nn
  | .dec_H => .decR .H
  | .ld_H_n n => .ldRn .H n
  | .jr_Z_e e => .jr .Z e
  | .dec_HL => .decRR .HL
  | .dec_L => .decR .L
  | .ld_L_n n => .ldRn .L n
  | .jr_NC_e e => .jr .NC e
  | .ld_atHLdec_A => .ldAtHLdecA
  | .jr_C_e e => .jr .C e
  | .dec_A => .decR .A
  | .ld_A_n n => .ldRn .A n
  | .ld_B_B => .ldRR .B .B
  | .ld_B_C => .ldRR .B .C
  | .ld_B_D => .ldRR .B .D
  | .ld_B_E => .ldRR .B .E
  | .ld_B_H => .ldRR .B .H
  | .ld_B_L => .ldRR .B .L
  | .ld_B_A => .ldRR .B .A
  | .ld_C_B => .ldRR .C .B
  | .ld_C_C => .ldRR .C .C
  | .ld_C_D => .ldRR .C .D
  | .ld_C_E => .ldRR .C .E
  | .ld_C_H => .ldRR .C .H
  | .ld_C_L => .ldRR .C .L
  | .ld_C_A => .ldRR .C .A
  | .ld_D_B => .ldRR .D .B
  | .ld_D_C => .ldRR .D .C
  | .ld_D_D => .ldRR .D .D
  | .ld_D_E => .ldRR .D .E
  | .ld_D_H => .ldRR .D .H
  | .ld_D_L => .ldRR .D .L
  | .ld_D_A => .ldRR .D .A
  | .ld_E_B => .ldRR .E .B
  | .ld_E_C => .ldRR .E .C
  | .ld_E_D => .ldRR .E .D
  | .ld_E_E => .ldRR .E .E
  | .ld_E_H => .ldRR .E .H
  | .ld_E_L => .ldRR .E .L
  | .ld_E_A => .ldRR .E .A
  | .ld_H_B => .ldRR .H .B
  | .ld_H_C => .ldRR .H .C
  | .ld_H_D => .ldRR .H .D
  | .ld_H_E => .ldRR .H .E
  | .ld_H_H => .ldRR .H .H
  | .ld_H_L => .ldRR .H .L
  | .ld_H_A => .ldRR .H .A
  | .ld_L_B => .ldRR .L .B
  | .ld_L_C => .ldRR .L .C
  | .ld_L_D => .ldRR .L .D
  | .ld_L_E => .ldRR .L .E
  | .ld_L_H => .ldRR .L .H
  | .ld_L_L => .ldRR .L .L
  | .ld_L_A => .ldRR .L .A
  | .ld_atHL_A => .ldAtRRA .HL
  | .ld_A_B => .ldRR .A .B
  | .ld_A_C => .ldRR .A .C
  | .ld_A_D => .ldRR .A .D
  | .ld_A_E => .ldRR .A .E
  | .ld_A_H => .ldRR .A .H
  | .ld_A_L => .ldRR .A .L
  | .ld_A_A => .ldRR .A .A
  | .and_B => .andR .B
  | .and_C => .andR .C
  | .and_D => .andR .D
  | .and_E => .andR .E
  | .and_H => .andR .H
  | .and_L => .andR .L
  | .and_A => .andR .A
  | .xor_B => .xorR .B
  | .xor_C => .xorR .C
  | .xor_D => .xorR .D
  | .xor_E => .xorR .E
  | .xor_H => .xorR .H
  | .xor_L => .xorR .L
  | .xor_A => .xorR .A
  | .cp_B => .cpR .B
  | .cp_C => .cpR .C
  | .cp_D => .cpR .D
  | .cp_E => .cpR .E
  | .cp_H => .cpR .H
  | .cp_L => .cpR .L
  | .cp_A => .cpR .A
  | .ret_NZ => .retCc .NZ
  | .jp_nn nn => .jp nn
  | .ret_Z => .retCc .Z
  | .ret => .ret
  | .call_nn nn => .call nn
  | .ret_NC => .retCc .NC
  | .ret_C => .retCc .C
  | .ldh_n_A n => .ldhNA n
  | .and_n n => .andN n
  | .xor_n n => .xorN n
  | .ldh_A_n n => .ldhAN n
  | .di => .di
  | .ei => .ei
  | .cp_n n => .cpN n

/-- The 3-bit register codes (R22). -/
def Reg8.code : Reg8 → BitVec 3
  | .B => 0
  | .C => 1
  | .D => 2
  | .E => 3
  | .H => 4
  | .L => 5
  | .A => 7

/-- The 2-bit pair codes (R22). -/
def Pair.code : Pair → BitVec 2
  | .BC => 0
  | .DE => 1
  | .HL => 2

/-- The 2-bit condition codes (R87). -/
def Cond.code : Cond → BitVec 2
  | .NZ => 0
  | .Z => 1
  | .NC => 2
  | .C => 3

/-- The opcode byte of each class, from the pattern of R88. -/
def Form.opcode : Form → Byte
  | .nop => 0b00000000#8
  | .ldRRnn p _ => 0b00#2 ++ p.code ++ 0b0001#4
  | .ldAtRRA .BC => 0b000#3 ++ 0b0#1 ++ 0b0010#4
  | .ldAtRRA .DE => 0b000#3 ++ 0b1#1 ++ 0b0010#4
  | .ldAtRRA .HL => 0b01110111#8
  | .decRR p => 0b00#2 ++ p.code ++ 0b1011#4
  | .decR r => 0b00#2 ++ r.code ++ 0b101#3
  | .ldRn r _ => 0b00#2 ++ r.code ++ 0b110#3
  | .jr c _ => 0b001#3 ++ c.code ++ 0b000#3
  | .ldAtHLdecA => 0b00110010#8
  | .ldRR r r' => 0b01#2 ++ r.code ++ r'.code
  | .andR r => 0b10100#5 ++ r.code
  | .xorR r => 0b10101#5 ++ r.code
  | .cpR r => 0b10111#5 ++ r.code
  | .retCc c => 0b110#3 ++ c.code ++ 0b000#3
  | .jp _ => 0b11000011#8
  | .ret => 0b11001001#8
  | .call _ => 0b11001101#8
  | .ldhNA _ => 0b11100000#8
  | .andN _ => 0b11100110#8
  | .xorN _ => 0b11101110#8
  | .ldhAN _ => 0b11110000#8
  | .di => 0b11110011#8
  | .cpN _ => 0b11111110#8
  | .ei => 0b11111011#8

/-- The operand bytes of each class, by its format (R81): a 16-bit immediate low byte first (R62). -/
def Form.operands : Form → List Byte
  | .nop => []
  | .ldRRnn _ nn => [Machine.lo nn, Machine.hi nn]
  | .ldAtRRA _ => []
  | .decRR _ => []
  | .decR _ => []
  | .ldRn _ n => [n]
  | .jr _ e => [e]
  | .ldAtHLdecA => []
  | .ldRR _ _ => []
  | .andR _ => []
  | .xorR _ => []
  | .cpR _ => []
  | .retCc _ => []
  | .jp nn => [Machine.lo nn, Machine.hi nn]
  | .ret => []
  | .call nn => [Machine.lo nn, Machine.hi nn]
  | .ldhNA n => [n]
  | .andN n => [n]
  | .xorN n => [n]
  | .ldhAN n => [n]
  | .di => []
  | .cpN n => [n]
  | .ei => []

/-- The opcode byte of an instruction (R88). -/
def Instr.opcode (i : Instr) : Byte := i.form.opcode

/-- The bytes of an instruction, lowest address first (R80, R81). -/
def encode (i : Instr) : List Byte := i.opcode :: i.form.operands

/-- The length of an instruction in bytes (R82). -/
def Instr.length (i : Instr) : Nat := (encode i).length

/-- The three bytes of an instruction given as a number whose bit 0 is the least significant bit of the first
byte; the bits from `nbits` up are 0. -/
def tableBytes (nbits w : Nat) : List Byte :=
  let v := w % 2 ^ nbits
  [BitVec.ofNat 8 v, BitVec.ofNat 8 (v / 256), BitVec.ofNat 8 (v / 65536)]

/-- The instruction the decoder reads from a word numbered as spec/opcode_table.json numbers it. -/
def decodeTableWord (nbits w : Nat) : Option Instr :=
  match decode (tableBytes nbits w) with
  | .ok (i, _) => some i
  | .error _ => none

end Sys2Proof
end

