-- ==== Sys2Proof/Config.lean ====
section
/-! DEFINITION. The parameters of coolboy CORE (00_scope.md R5) as plain data, and the free values of the
model. The default values stand in Machine/Params.lean. -/

namespace Sys2Proof

/-- COST (R5, R96): the total cost in machine cycles of each row of R96's table, taken and not taken apart
where they differ. A parameter (D11). -/
structure Cost where
  nop : Nat
  jp : Nat
  jrTaken : Nat
  jrNotTaken : Nat
  ldRN : Nat
  ldRRNN : Nat
  ldRR : Nat
  /-- LD (rr),A for BC, DE and HL. -/
  ldAtRRA : Nat
  ldAtHLDecA : Nat
  ldhNA : Nat
  ldhAN : Nat
  decR : Nat
  decRR : Nat
  xorR : Nat
  andR : Nat
  cpR : Nat
  xorN : Nat
  andN : Nat
  cpN : Nat
  call : Nat
  ret : Nat
  retTaken : Nat
  retNotTaken : Nat
  di : Nat
  ei : Nat
  deriving DecidableEq, Repr

/-- IO_BACKING (R5, R54, D18, U5): what is attached behind the I/O window `[0xFF00, 0x10000)`. `none` is the
default and the only value the spec defines. With `device readable` a read of an offset in `readable` answers
the free value `Config.deviceRead`, a read of another offset faults, and a write moves the device to the free
state `Config.deviceWrite` (log 6). -/
inductive IoBacking where
  | none
  | device (readable : List Byte)
  deriving DecidableEq, Repr

/-- The parameters of R5, taken as a configuration record. No operation of the machine writes it (log 1). -/
structure Config where
  /-- WRAM_SIZE (D5). -/
  wramSize : Nat
  /-- SP_RESET (D4). -/
  spReset : Word
  /-- IO_BACKING (D18). -/
  ioBacking : IoBacking
  /-- IMPL (R89, D2): the opcode bytes that have a handler. -/
  impl : List Byte
  /-- COST (R96, D11). -/
  cost : Cost
  /-- TRACE (R135, D24): whether the trace port exists. -/
  trace : Bool
  deriving DecidableEq, Repr

/-- FREE VALUE (log 6, U5): the byte an attached device answers in a given device state at an offset of the
I/O window. -/
opaque Config.deviceRead : Nat → Byte → Byte

/-- FREE VALUE (log 6, U5): the state an attached device enters when a byte is written at an offset. -/
opaque Config.deviceWrite : Nat → Byte → Byte → Nat

/-- FREE VALUE (log 7, U7): what the cartridge's read port answers at a masked address that lies beyond the
image. -/
opaque Config.beyondImage : Nat → Byte

/-- FREE VALUE (log 3, U1): an 8-bit register after a fault; the first argument numbers the faults of a
session, the second the registers. -/
opaque Config.faultByte : Nat → Nat → Byte

/-- FREE VALUE (log 3, U1): a 16-bit register after a fault, numbered in the same way. -/
opaque Config.faultWord : Nat → Nat → Word

end Sys2Proof
end

