-- ==== Sys2Proof/Machine/Params.lean ====
section
/-! DEFINITION. The default values of the parameters (00_scope.md R5) and the fixed constants of the address
map and of the image format. -/

namespace Sys2Proof.Machine

/-- ROM_END (R5, R50). -/
def romEnd : Nat := 0x8000

/-- WRAM_BASE (R5, R50). -/
def wramBase : Nat := 0xC000

/-- IO_BASE (R5, R50). -/
def ioBase : Nat := 0xFF00

/-- ROM_LEN (R5, R102, D14). -/
def romLen : Nat := 0x8000

/-- The default of COST: the table of R96 (D11). -/
def defaultCost : Cost where
  nop := 1
  jp := 4
  jrTaken := 3
  jrNotTaken := 2
  ldRN := 2
  ldRRNN := 3
  ldRR := 1
  ldAtRRA := 2
  ldAtHLDecA := 2
  ldhNA := 3
  ldhAN := 3
  decR := 1
  decRR := 2
  xorR := 1
  andR := 1
  cpR := 1
  xorN := 2
  andN := 2
  cpN := 2
  call := 6
  ret := 4
  retTaken := 5
  retNotTaken := 2
  di := 1
  ei := 1

/-- The default of IMPL: the 113 bytes of R89, in the rows R89 lists them in (D2). -/
def defaultImpl : List Byte :=
  [0x00] ++ [0x01, 0x11, 0x21] ++ [0x02, 0x12] ++
  [0x05, 0x0D, 0x15, 0x1D, 0x25, 0x2D, 0x3D] ++
  [0x06, 0x0E, 0x16, 0x1E, 0x26, 0x2E, 0x3E] ++
  [0x0B, 0x1B, 0x2B] ++ [0x20, 0x28, 0x30, 0x38] ++ [0x32] ++
  [0x40, 0x41, 0x42, 0x43, 0x44, 0x45, 0x47] ++ [0x48, 0x49, 0x4A, 0x4B, 0x4C, 0x4D, 0x4F] ++
  [0x50, 0x51, 0x52, 0x53, 0x54, 0x55, 0x57] ++ [0x58, 0x59, 0x5A, 0x5B, 0x5C, 0x5D, 0x5F] ++
  [0x60, 0x61, 0x62, 0x63, 0x64, 0x65, 0x67] ++ [0x68, 0x69, 0x6A, 0x6B, 0x6C, 0x6D, 0x6F] ++
  [0x78, 0x79, 0x7A, 0x7B, 0x7C, 0x7D, 0x7F] ++ [0x77] ++
  [0xA0, 0xA1, 0xA2, 0xA3, 0xA4, 0xA5, 0xA7] ++ [0xA8, 0xA9, 0xAA, 0xAB, 0xAC, 0xAD, 0xAF] ++
  [0xB8, 0xB9, 0xBA, 0xBB, 0xBC, 0xBD, 0xBF] ++
  [0xC0, 0xC8, 0xD0, 0xD8, 0xC9] ++ [0xC3] ++ [0xCD] ++ [0xE0, 0xF0] ++ [0xE6, 0xEE, 0xFE] ++
  [0xF3, 0xFB]

/-- The default configuration (R5). -/
def defaultConfig : Config where
  wramSize := 0x2000
  spReset := 0xDFFF
  ioBacking := .none
  impl := defaultImpl
  cost := defaultCost
  trace := false

end Sys2Proof.Machine
end

