-- ==== Sys2Proof/Machine/State.lean ====
section
/-! DEFINITION. The state of coolboy CORE (10_state.md R20), its faults, refusals and load errors, and the
state right after reset. -/

namespace Sys2Proof.Machine

/-- Bytes by index (an offset into the image, or an index into Working Memory), in one canonical form: indexes
strictly rising, no byte 0x00 listed (`Memory.wf`, in Memory.lean). An index that is not listed reads 0x00
(R41, D17 for Working Memory; for the image a mere notation, log 10). -/
abbrev Memory := List Host.Cell

/-- The faults (R200): raised inside `begin` or `tick`. -/
inductive Fault where
  /-- Raised by a cartridge read while LOADED = 0 (R73, R204): in `begin` and in any ROM-region read of a
  tick. The spec's own fault: safe. -/
  | cartridgeNotLoaded
  /-- Raised by a memory read outside ROM and WRAM (R53, R54, R202), with the address of the byte that could
  not be read. The spec's own fault: safe. -/
  | unmappedAddress (a : Word)
  /-- Raised by the dispatch of a byte outside IMPL (R90, R203), with the byte and the address it was fetched
  from. The spec's own fault: safe. -/
  | unimplementedOpcode (op : Byte) (a : Word)
  deriving DecidableEq, Repr

/-- The load errors (R200, R205): results of `validate`, never raised by the CPU Core. -/
inductive LoadError where
  | invalidHeaderSignature
  | unsupportedCartridgeLayout
  | checksumMismatch
  deriving DecidableEq, Repr

/-- Why a step has no meaning. -/
inductive Refusal where
  /-- An arm of `exec` without a meaning; no arm is so. Safe. -/
  | notModelled (mnemonic : String)
  /-- Raised by `tick` before any `begin` (R122, R240, U3: "a model refuses it"). Safe. -/
  | tickBeforeBegin
  deriving DecidableEq, Repr

/-- The regions of the address map (R50, R55). -/
inductive Region where
  | rom
  | wram
  | io
  | unmapped
  deriving DecidableEq, Repr

/-- An image as the host hands it to `validate` (R102): its length and its bytes. -/
structure Image where
  len : Nat
  cells : Memory
  deriving DecidableEq, Repr

/-- What the Cartridge Validator holds once LOADED = 1 (R20, R40). -/
structure Cartridge where
  rom : Memory
  ctype : Byte
  csize : Byte
  csumDecl : Word
  title : List Byte
  start : Word
  deriving DecidableEq, Repr

/-- The Cartridge Validator (R20, R40): LOADED is 1 exactly in `loaded`. `failed` is a validator whose one
`validate` failed: it holds no image (R109), and a second `validate` on it is refused (U10). -/
inductive Validator where
  | unloaded
  | failed
  | loaded (c : Cartridge)
  deriving DecidableEq, Repr

/-- The whole state (R20), then the parameters (`cfg`, log 1) and the model's own fields (`begun`, log 4;
`ioDev`, log 6). -/
structure State where
  /-- A, the accumulator (R21). -/
  a : Byte
  /-- F, the flag register (R30). -/
  f : Byte
  /-- B (R21). -/
  b : Byte
  /-- C (R21). -/
  c : Byte
  /-- D (R21). -/
  d : Byte
  /-- E (R21). -/
  e : Byte
  /-- H (R21). -/
  h : Byte
  /-- L (R21). -/
  l : Byte
  /-- SP, the stack pointer (R36). -/
  sp : Word
  /-- PC, the program counter (R26). -/
  pc : Word
  /-- IME, the interrupt-master-enable latch (R37). -/
  ime : Bool
  /-- PEND, the pending-cycle counter (R38). -/
  pend : Nat
  /-- FLT, the fault latch (R39). -/
  flt : Option Fault
  /-- WRAM, Working Memory by index: byte `k` stands at address `0xC000 + k` (R41). -/
  wram : Memory
  /-- The Cartridge Validator (R40): LOADED, ROM, CTYPE, CSIZE, CSUM_DECL, TITLE, START. -/
  cv : Validator
  /-- The parameters (R5); no operation writes them (log 1). -/
  cfg : Config
  /-- The model's own: `begin` has been called since construction (R122, R240, log 4). -/
  begun : Bool
  /-- The model's own: the state of the device behind IO_BACKING, when there is one (log 6). -/
  ioDev : Nat
  deriving DecidableEq, Repr

/-- The machine right after `reset()` (R44), on a CPU Core just constructed (R45) with the default parameters
and no cartridge loaded; `begin` has not been called (log 4, log 5). -/
def State.reset : State where
  a := 0
  f := 0
  b := 0
  c := 0
  d := 0
  e := 0
  h := 0
  l := 0
  sp := defaultConfig.spReset
  pc := 0
  ime := false
  pend := 0
  flt := none
  wram := []
  cv := .unloaded
  cfg := defaultConfig
  begun := false
  ioDev := 0

end Sys2Proof.Machine
end

