-- ==== Sys2Proof/Machine/Memory.lean ====
section
/-! DEFINITION. Byte storage in canonical form: one read, one write. -/

namespace Sys2Proof.Machine

/-- The canonical form: indexes strictly rising and no byte 0x00 listed, so that equal storage is equal
data. -/
abbrev Memory.wf (m : Memory) : Prop :=
  m.Pairwise (fun x y => x.1 < y.1) ∧ ∀ x ∈ m, x.2 ≠ 0

/-- The byte at an index; an index that is not listed reads 0x00 (log 10). -/
def Memory.read : Memory → Nat → Byte
  | [], _ => 0
  | (k, v) :: m, i => if k = i then v else Memory.read m i

/-- Puts a pair before the first one with a larger index. -/
def Memory.insert (i : Nat) (v : Byte) : Memory → Memory
  | [] => [(i, v)]
  | (k, w) :: m => if i < k then (i, v) :: (k, w) :: m else (k, w) :: Memory.insert i v m

/-- Drops the entry of an index. -/
def Memory.erase (m : Memory) (i : Nat) : Memory := m.filter (fun x => x.1 != i)

/-- Stores a byte at an index: the old entry goes, and the new one is listed unless it is 0x00. -/
def Memory.write (m : Memory) (i : Nat) (v : Byte) : Memory :=
  if v = 0 then m.erase i else Memory.insert i v (m.erase i)

end Sys2Proof.Machine
end

