-- ==== Sys2Proof/Machine/Cartridge.lean ====
section
/-! DEFINITION. The Cartridge Validator: image, checksum engine, title, validation, read port
(40_cartridge_validator.md R100 to R117). -/

namespace Sys2Proof.Machine

/-- Byte `i` of an image (R102). -/
def Image.byte (img : Image) (i : Nat) : Byte := img.cells.read i

/-- The cells of a byte sequence that starts at offset `i`: its bytes other than 0x00 (log 10). -/
def cellsFrom (i : Nat) : List Byte → Memory
  | [] => []
  | v :: bytes => if v = 0 then cellsFrom (i + 1) bytes else (i, v) :: cellsFrom (i + 1) bytes

/-- The image of a byte buffer (R102). -/
def Image.ofBytes (bytes : List Byte) : Image := ⟨bytes.length, cellsFrom 0 bytes⟩

/-- The two offsets that hold the declared checksum and stay out of the sum (R103, R107). -/
def isChecksumOffset (i : Nat) : Bool := i == 0x14E || i == 0x14F

/-- What byte `i` adds to the checksum (R107): its unsigned value, or nothing at the two checksum offsets. -/
def checksumTerm (img : Image) (i : Nat) : Word := if isChecksumOffset i then 0 else zext (img.byte i)

/-- The accumulator of the checksum engine after the first `n` offsets (R107). -/
def checksumUpTo (img : Image) : Nat → Word
  | 0 => 0
  | n + 1 => checksumUpTo img n + checksumTerm img n

/-- `Checksum(img)` (R107). -/
def checksum (img : Image) : Word := checksumUpTo img img.len

/-- The declared checksum, big-endian at 0x14E (R103, R108). -/
def declaredChecksum (img : Image) : Word := cat (img.byte 0x14E) (img.byte 0x14F)

/-- `Title(img)` (R112): the run from 0x134 up to the first zero byte or through 0x143 (C6, D15). -/
def imageTitle (img : Image) : List Byte :=
  ((List.range 16).map (fun i => img.byte (0x134 + i))).takeWhile (fun v => v != 0)

/-- The signature check (R105). -/
def signatureOk (img : Image) : Bool := img.byte 0x100 == 0xC3 && img.byte 0x101 == 0x00

/-- The layout check (R106). -/
def layoutOk (img : Image) : Bool := img.byte 0x147 == 0x00 && img.byte 0x148 == 0x00

/-- The checksum check (R108). -/
def checksumOk (img : Image) : Bool := checksum img == declaredChecksum img

/-- What a successful `validate` stores (R104). -/
def cartridgeOf (img : Image) : Cartridge where
  rom := img.cells
  ctype := img.byte 0x147
  csize := img.byte 0x148
  csumDecl := declaredChecksum img
  title := imageTitle img
  start := cat (img.byte 0x103) (img.byte 0x102)

/-- `validate(img)` for an image of ROM_LEN bytes (R104): signature, layout, checksum, in that order. The
precondition on the length (R102) is checked where the host calls it (HostOps.lean). -/
def validate (img : Image) : Except LoadError Cartridge :=
  if !signatureOk img then .error .invalidHeaderSignature
  else if !layoutOk img then .error .unsupportedCartridgeLayout
  else if !checksumOk img then .error .checksumMismatch
  else .ok (cartridgeOf img)

/-- The byte of a loaded image at a masked address (R110); beyond the image a free value (U7, log 7). -/
def romByte (c : Cartridge) (i : Nat) : Byte :=
  if i < romLen then c.rom.read i else Config.beyondImage i

/-- `CartRead8(addr)`, the read port `readByte` (R110), `addr` any natural number. -/
def cartRead8 (v : Validator) (addr : Nat) : Except Fault Byte :=
  match v with
  | .loaded c => .ok (romByte c (addr % 65536))
  | .unloaded => .error .cartridgeNotLoaded
  | .failed => .error .cartridgeNotLoaded

/-- `CartRead16(addr)`, the read port `readWord` (R111). -/
def cartRead16 (v : Validator) (addr : Nat) : Except Fault Word :=
  match cartRead8 v addr with
  | .error r => .error r
  | .ok low =>
    match cartRead8 v (addr + 1) with
    | .error r => .error r
    | .ok high => .ok (cat high low)

/-- `startVector()` (R113). -/
def startVector (v : Validator) : Except Fault Word := cartRead16 v 0x102

/-- `title()` (R100, R112), read by the host; a validator that holds no cartridge has none to give (R100: "may
not be queried for unvalidated data"). -/
def titleOf (v : Validator) : Except Fault (List Byte) :=
  match v with
  | .loaded c => .ok c.title
  | .unloaded => .error .cartridgeNotLoaded
  | .failed => .error .cartridgeNotLoaded

/-- LOADED (R40). -/
def Validator.isLoaded : Validator → Bool
  | .loaded _ => true
  | .unloaded => false
  | .failed => false

/-- The ordinal of each load error in the document's list (R201, D25). -/
def LoadError.code : LoadError → Nat
  | .invalidHeaderSignature => 1
  | .unsupportedCartridgeLayout => 2
  | .checksumMismatch => 3

/-- The ordinal of each fault in the document's list (R201, D25). -/
def Fault.code : Fault → Nat
  | .cartridgeNotLoaded => 4
  | .unmappedAddress _ => 5
  | .unimplementedOpcode _ _ => 6

end Sys2Proof.Machine
end

