-- ==== Sys2Proof/Machine/Flags.lean ====
section
/-! DEFINITION. The flag register, its one update primitive and the branch conditions (10_state.md R30 to R33,
30_encoding.md R87). -/

namespace Sys2Proof.Machine

/-- The four flags of F (R30). -/
inductive Flag where
  | Z
  | N
  | H
  | C
  deriving DecidableEq, Repr

/-- FLAG_Z, FLAG_N, FLAG_H, FLAG_C: the mask of each flag in F (R5, R30, D3). -/
def Flag.mask : Flag → Byte
  | .Z => 0x80
  | .N => 0x40
  | .H => 0x20
  | .C => 0x10

/-- A flag bit of F read as a boolean (R8). -/
def State.flag (s : State) (f : Flag) : Bool := s.f &&& f.mask != 0

/-- `SetFlag(f, b)`, the flag-update protocol (R33): ORs the flag bit in when true, ANDs it out when
false. -/
def setFlag (f : Flag) (b : Bool) (s : State) : State :=
  { s with f := if b then s.f ||| f.mask else s.f &&& (0xFF ^^^ f.mask) }

/-- `cond(cc)` (R87). -/
def cond (s : State) : Cond → Bool
  | .NZ => !s.flag .Z
  | .Z => s.flag .Z
  | .NC => !s.flag .C
  | .C => s.flag .C

end Sys2Proof.Machine
end

