-- ==== Sys2Proof/Machine/Operands.lean ====
section
/-! DEFINITION. Registers and register pairs by name, the address decoder, the memory access primitives and the
operand fetches (10_state.md R21 to R23, 20_memory.md R50 to R60, 30_encoding.md R84, R85). -/

namespace Sys2Proof.Machine

/-- `x[r]` (R8, R21). -/
def State.reg (s : State) : Reg8 → Byte
  | .A => s.a
  | .B => s.b
  | .C => s.c
  | .D => s.d
  | .E => s.e
  | .H => s.h
  | .L => s.l

/-- `x[r] <- v` (R8, R21). -/
def setReg (r : Reg8) (v : Byte) (s : State) : State :=
  match r with
  | .A => { s with a := v }
  | .B => { s with b := v }
  | .C => { s with c := v }
  | .D => { s with d := v }
  | .E => { s with e := v }
  | .H => { s with h := v }
  | .L => { s with l := v }

/-- The high half of a pair: the register named first (R23, D6). -/
def Pair.high : Pair → Reg8
  | .BC => .B
  | .DE => .D
  | .HL => .H

/-- The low half of a pair (R23, D6). -/
def Pair.low : Pair → Reg8
  | .BC => .C
  | .DE => .E
  | .HL => .L

/-- `xx[p]` (R8, R23): `{high, low}`. -/
def State.pair (s : State) (p : Pair) : Word := cat (s.reg (Pair.high p)) (s.reg (Pair.low p))

/-- `xx[p] <- v` (R8, R23): `hi(v)` to the high register, `lo(v)` to the low one. -/
def setPair (p : Pair) (v : Word) (s : State) : State :=
  setReg (Pair.low p) (lo v) (setReg (Pair.high p) (hi v) s)

/-- `PC <- v` (R26). -/
def setPc (v : Word) (s : State) : State := { s with pc := v }

/-- `SP <- v` (R36). -/
def setSp (v : Word) (s : State) : State := { s with sp := v }

/-- `Region(a)` (R50, R55). -/
def region (cfg : Config) (a : Word) : Region :=
  if a.toNat < romEnd then .rom
  else if wramBase ≤ a.toNat ∧ a.toNat < wramBase + cfg.wramSize then .wram
  else if ioBase ≤ a.toNat then .io
  else .unmapped

/-- A read of the I/O window (R54): with IO_BACKING = none it raises `UnmappedAddress(a)`; an attached device
answers a free value at its readable offsets (U5, log 6). -/
def ioRead (s : State) (a : Word) : Except Fault Byte :=
  match s.cfg.ioBacking with
  | .none => .error (.unmappedAddress a)
  | .device readable =>
    if readable.contains (lo a) then .ok (Config.deviceRead s.ioDev (lo a)) else .error (.unmappedAddress a)

/-- A write to the I/O window (R54): dropped with IO_BACKING = none; otherwise the attached device enters a
free state (U5, log 6). -/
def ioWrite (s : State) (a : Word) (v : Byte) : State :=
  match s.cfg.ioBacking with
  | .none => s
  | .device _ => { s with ioDev := Config.deviceWrite s.ioDev (lo a) v }

/-- `MemRead(a, 1)` (R56). -/
def memRead (s : State) (a : Word) : Except Fault Byte :=
  match region s.cfg a with
  | .rom => cartRead8 s.cv a.toNat
  | .wram => .ok (s.wram.read (a.toNat - wramBase))
  | .io => ioRead s a
  | .unmapped => .error (.unmappedAddress a)

/-- `MemRead(a, 2)` (R57): low byte first, the second address wraps on its own, and a first read that raises
ends it. -/
def memRead16 (s : State) (a : Word) : Except Fault Word :=
  match memRead s a with
  | .error r => .error r
  | .ok low =>
    match memRead s (a + 1) with
    | .error r => .error r
    | .ok high => .ok (cat high low)

/-- `MemWrite(a, 1, v)` (R58): stores in WRAM, changes nothing elsewhere (but see `ioWrite`), never raises. -/
def memWrite (a : Word) (v : Byte) (s : State) : State :=
  match region s.cfg a with
  | .rom => s
  | .wram => { s with wram := s.wram.write (a.toNat - wramBase) v }
  | .io => ioWrite s a v
  | .unmapped => s

/-- `Imm8()` (R84): fetches one operand byte at PC and advances PC. -/
def imm8 (s : State) : Except Fault (Byte × State) :=
  match memRead s s.pc with
  | .error r => .error r
  | .ok v => .ok (v, setPc (s.pc + 1) s)

/-- `Imm16()` (R85): fetches two operand bytes, low byte first. -/
def imm16 (s : State) : Except Fault (Word × State) :=
  match imm8 s with
  | .error r => .error r
  | .ok (low, s1) =>
    match imm8 s1 with
    | .error r => .error r
    | .ok (high, s2) => .ok (cat high low, s2)

/-- The effective address of the two high-page instructions (R156, R157, R158): `0xFF00 | n`. -/
def highPage (n : Byte) : Word := 0xFF00#16 ||| zext n

end Sys2Proof.Machine
end

