-- ==== Sys2Proof/Machine/Ops.lean ====
section
/-! DEFINITION. The operations the meanings share: the stack, the end of an instruction, raising and latching a
fault, reset and begin (20_memory.md R64, R65; 41_engine.md R126, R132; 70_reset_and_hazards.md R230 to
R233). -/

namespace Sys2Proof.Machine

/-- The outcome of a step of this machine. -/
abbrev Result := Host.Outcome State Fault Refusal

/-- `PEND <- n` (R38). -/
def setPend (n : Nat) (s : State) : State := { s with pend := n }

/-- The end of an executed instruction: PEND becomes its cost minus the one cycle consumed by the opcode
fetch (R126), and the state is the next one. -/
def done (cycles : Nat) (s : State) : Result := .next (setPend (cycles - 1) s)

/-- `raise K(info)` inside a tick (R9, R132): the tick ends with the fault record and no successor state; what
it leaves behind is `latchFault` (log 2). -/
def raise (r : Fault) : Result := .fault r

/-- `Push16(v)` (R64): SP - 1, high byte; SP - 1, low byte. -/
def push16 (v : Word) (s : State) : State :=
  let s1 := memWrite (s.sp - 1) (hi v) (setSp (s.sp - 1) s)
  memWrite (s1.sp - 1) (lo v) (setSp (s1.sp - 1) s1)

/-- `Pop16()` (R65): low byte, SP + 1; high byte, SP + 1. A read that raises ends it. -/
def pop16 (s : State) : Except Fault (Word × State) :=
  match memRead s s.sp with
  | .error r => .error r
  | .ok low =>
    let s1 := setSp (s.sp + 1) s
    match memRead s1 s1.sp with
    | .error r => .error r
    | .ok high => .ok (cat high low, setSp (s1.sp + 1) s1)

/-- What a faulting tick leaves behind (R132, R208, R209): FLT holds the record; PEND, WRAM, IME, the cartridge
and the parameters are as before; A, F, B, C, D, E, H, L, SP and PC are unspecified (U1), so free values, all eight
bits of F among them (log 3). `k` numbers the faults of the session. -/
def latchFault (r : Fault) (k : Nat) (s : State) : State :=
  { s with
    a := Config.faultByte k 0
    f := Config.faultByte k 1
    b := Config.faultByte k 2
    c := Config.faultByte k 3
    d := Config.faultByte k 4
    e := Config.faultByte k 5
    h := Config.faultByte k 6
    l := Config.faultByte k 7
    sp := Config.faultWord k 0
    pc := Config.faultWord k 1
    flt := some r }

/-- Construction of the CPU Core on a Cartridge Validator: the power-on values (R45, D17). -/
def construct (cfg : Config) (cv : Validator) : State where
  a := 0
  f := 0
  b := 0
  c := 0
  d := 0
  e := 0
  h := 0
  l := 0
  sp := cfg.spReset
  pc := 0
  ime := false
  pend := 0
  flt := none
  wram := []
  cv := cv
  cfg := cfg
  begun := false
  ioDev := 0

/-- `reset()` (R231, R44): one of the two ways out of a latched fault (R210). WRAM, PEND and the cartridge are
unchanged. -/
def resetOp (s : State) : State :=
  { s with
    a := 0
    f := 0
    b := 0
    c := 0
    d := 0
    e := 0
    h := 0
    l := 0
    sp := s.cfg.spReset
    pc := 0
    ime := false
    flt := none }

/-- `begin()` (R232): reset, then PC becomes the start vector and PEND zero. Without a cartridge the fault is
latched over the reset values and PEND stays (R233). The other way out of a latched fault (R210). -/
def beginOp (s : State) : State :=
  let s1 := { resetOp s with begun := true }
  match startVector s1.cv with
  | .ok v => { s1 with pc := v, pend := 0 }
  | .error r => { s1 with flt := some r }

end Sys2Proof.Machine
end

