-- ==== Sys2Proof/Machine/Alu.lean ====
section
/-! DEFINITION. Arithmetic and logic: DEC, XOR, AND, CP (44_alu.md R170 to R180). A meaning runs after the opcode
and operand fetches, with PC past the instruction (10_state.md R26; log 8). -/

namespace Sys2Proof.Machine

/-- `DEC r` (R170): Z from the result, N set. -/
def decReg (r : Reg8) (s : State) : Result :=
  let v := s.reg r - 1
  done s.cfg.cost.decR (setFlag .N true (setFlag .Z (v == 0) (setReg r v s)))

/-- `DEC rr` (R171): no flag. -/
def decPair (p : Pair) (s : State) : Result :=
  done s.cfg.cost.decRR (setPair p (s.pair p - 1) s)

/-- The common body of XOR r and XOR n (R172, R173): A and Z. -/
def xorAcc (v : Byte) (s : State) : State :=
  setFlag .Z (s.a ^^^ v == 0) (setReg .A (s.a ^^^ v) s)

/-- The common body of AND r and AND n (R174, R175): A, Z, N cleared, H set, C cleared. -/
def andAcc (v : Byte) (s : State) : State :=
  setFlag .C false (setFlag .H true (setFlag .N false
    (setFlag .Z (s.a &&& v == 0) (setReg .A (s.a &&& v) s))))

/-- The common body of CP r and CP n (R176, R177): Z only, A not stored. -/
def cpAcc (v : Byte) (s : State) : State := setFlag .Z (s.a - v == 0) s

/-- `XOR r` (R172). -/
def xorReg (r : Reg8) (s : State) : Result := done s.cfg.cost.xorR (xorAcc (s.reg r) s)

/-- `XOR n` (R173). -/
def xorImm (n : Byte) (s : State) : Result := done s.cfg.cost.xorN (xorAcc n s)

/-- `AND r` (R174). -/
def andReg (r : Reg8) (s : State) : Result := done s.cfg.cost.andR (andAcc (s.reg r) s)

/-- `AND n` (R175). -/
def andImm (n : Byte) (s : State) : Result := done s.cfg.cost.andN (andAcc n s)

/-- `CP r` (R176). -/
def cpReg (r : Reg8) (s : State) : Result := done s.cfg.cost.cpR (cpAcc (s.reg r) s)

/-- `CP n` (R177). -/
def cpImm (n : Byte) (s : State) : Result := done s.cfg.cost.cpN (cpAcc n s)

/-- `DEC B`, opcode 05 (R170). -/
def exec_dec_B (s : State) : Result := decReg .B s

/-- `DEC BC`, opcode 0B (R171). -/
def exec_dec_BC (s : State) : Result := decPair .BC s

/-- `DEC C`, opcode 0D (R170). -/
def exec_dec_C (s : State) : Result := decReg .C s

/-- `DEC D`, opcode 15 (R170). -/
def exec_dec_D (s : State) : Result := decReg .D s

/-- `DEC DE`, opcode 1B (R171). -/
def exec_dec_DE (s : State) : Result := decPair .DE s

/-- `DEC E`, opcode 1D (R170). -/
def exec_dec_E (s : State) : Result := decReg .E s

/-- `DEC H`, opcode 25 (R170). -/
def exec_dec_H (s : State) : Result := decReg .H s

/-- `DEC HL`, opcode 2B (R171). -/
def exec_dec_HL (s : State) : Result := decPair .HL s

/-- `DEC L`, opcode 2D (R170). -/
def exec_dec_L (s : State) : Result := decReg .L s

/-- `DEC A`, opcode 3D (R170). -/
def exec_dec_A (s : State) : Result := decReg .A s

/-- `AND B`, opcode A0 (R174). -/
def exec_and_B (s : State) : Result := andReg .B s

/-- `AND C`, opcode A1 (R174). -/
def exec_and_C (s : State) : Result := andReg .C s

/-- `AND D`, opcode A2 (R174). -/
def exec_and_D (s : State) : Result := andReg .D s

/-- `AND E`, opcode A3 (R174). -/
def exec_and_E (s : State) : Result := andReg .E s

/-- `AND H`, opcode A4 (R174). -/
def exec_and_H (s : State) : Result := andReg .H s

/-- `AND L`, opcode A5 (R174). -/
def exec_and_L (s : State) : Result := andReg .L s

/-- `AND A`, opcode A7 (R174). -/
def exec_and_A (s : State) : Result := andReg .A s

/-- `XOR B`, opcode A8 (R172). -/
def exec_xor_B (s : State) : Result := xorReg .B s

/-- `XOR C`, opcode A9 (R172). -/
def exec_xor_C (s : State) : Result := xorReg .C s

/-- `XOR D`, opcode AA (R172). -/
def exec_xor_D (s : State) : Result := xorReg .D s

/-- `XOR E`, opcode AB (R172). -/
def exec_xor_E (s : State) : Result := xorReg .E s

/-- `XOR H`, opcode AC (R172). -/
def exec_xor_H (s : State) : Result := xorReg .H s

/-- `XOR L`, opcode AD (R172). -/
def exec_xor_L (s : State) : Result := xorReg .L s

/-- `XOR A`, opcode AF (R172). -/
def exec_xor_A (s : State) : Result := xorReg .A s

/-- `CP B`, opcode B8 (R176). -/
def exec_cp_B (s : State) : Result := cpReg .B s

/-- `CP C`, opcode B9 (R176). -/
def exec_cp_C (s : State) : Result := cpReg .C s

/-- `CP D`, opcode BA (R176). -/
def exec_cp_D (s : State) : Result := cpReg .D s

/-- `CP E`, opcode BB (R176). -/
def exec_cp_E (s : State) : Result := cpReg .E s

/-- `CP H`, opcode BC (R176). -/
def exec_cp_H (s : State) : Result := cpReg .H s

/-- `CP L`, opcode BD (R176). -/
def exec_cp_L (s : State) : Result := cpReg .L s

/-- `CP A`, opcode BF (R176). -/
def exec_cp_A (s : State) : Result := cpReg .A s

/-- `AND n`, opcode E6 (R175). -/
def exec_and_n (n : Byte) (s : State) : Result := andImm n s

/-- `XOR n`, opcode EE (R173). -/
def exec_xor_n (n : Byte) (s : State) : Result := xorImm n s

/-- `CP n`, opcode FE (R177). -/
def exec_cp_n (n : Byte) (s : State) : Result := cpImm n s

end Sys2Proof.Machine
end

