-- ==== Sys2Proof/Machine/ControlTransfer.lean ====
section
/-! DEFINITION. Control transfer: JP, JR cc, CALL, RET, RET cc (42_control_transfer.md R140 to R146). A meaning
runs after the opcode and operand fetches, with PC past the instruction (10_state.md R26; log 8). -/

namespace Sys2Proof.Machine

/-- `JP nn` (R141). -/
def jumpAbs (nn : Word) (s : State) : Result := done s.cfg.cost.jp (setPc nn s)

/-- `JR cc,e` (R142): the displacement is added to the PC that is past the operand (D8). -/
def jumpRel (c : Cond) (e : Byte) (s : State) : Result :=
  if cond s c then done s.cfg.cost.jrTaken (setPc (s.pc + sext e) s)
  else done s.cfg.cost.jrNotTaken s

/-- `CALL nn` (R143). -/
def callAbs (nn : Word) (s : State) : Result :=
  done s.cfg.cost.call (setPc nn (push16 s.pc s))

/-- A taken return (R144, R145): `PC <- Pop16()`. -/
def popPc (cycles : Nat) (s : State) : Result :=
  match pop16 s with
  | .ok (v, s') => done cycles (setPc v s')
  | .error r => raise r

/-- `RET` (R144). -/
def returnAlways (s : State) : Result := popPc s.cfg.cost.ret s

/-- `RET cc` (R145). -/
def returnIf (c : Cond) (s : State) : Result :=
  if cond s c then popPc s.cfg.cost.retTaken s else done s.cfg.cost.retNotTaken s

/-- `JR NZ,e`, opcode 20 (R142). -/
def exec_jr_NZ_e (e : Byte) (s : State) : Result := jumpRel .NZ e s

/-- `JR Z,e`, opcode 28 (R142). -/
def exec_jr_Z_e (e : Byte) (s : State) : Result := jumpRel .Z e s

/-- `JR NC,e`, opcode 30 (R142). -/
def exec_jr_NC_e (e : Byte) (s : State) : Result := jumpRel .NC e s

/-- `JR C,e`, opcode 38 (R142). -/
def exec_jr_C_e (e : Byte) (s : State) : Result := jumpRel .C e s

/-- `RET NZ`, opcode C0 (R145). -/
def exec_ret_NZ (s : State) : Result := returnIf .NZ s

/-- `JP nn`, opcode C3 (R141). -/
def exec_jp_nn (nn : Word) (s : State) : Result := jumpAbs nn s

/-- `RET Z`, opcode C8 (R145). -/
def exec_ret_Z (s : State) : Result := returnIf .Z s

/-- `RET`, opcode C9 (R144). -/
def exec_ret (s : State) : Result := returnAlways s

/-- `CALL nn`, opcode CD (R143). -/
def exec_call_nn (nn : Word) (s : State) : Result := callAbs nn s

/-- `RET NC`, opcode D0 (R145). -/
def exec_ret_NC (s : State) : Result := returnIf .NC s

/-- `RET C`, opcode D8 (R145). -/
def exec_ret_C (s : State) : Result := returnIf .C s

end Sys2Proof.Machine
end

