-- ==== Sys2Proof/Machine/Loads.lean ====
section
/-! DEFINITION. Loads and stores (43_loads.md R150 to R158). A meaning runs after the opcode and operand fetches,
with PC past the instruction (10_state.md R26; log 8). -/

namespace Sys2Proof.Machine

/-- `LD r,n` (R150): Z from the loaded value. -/
def loadImm (r : Reg8) (n : Byte) (s : State) : Result :=
  done s.cfg.cost.ldRN (setFlag .Z (n == 0) (setReg r n s))

/-- `LD rr,nn` (R151). -/
def loadPairImm (p : Pair) (nn : Word) (s : State) : Result :=
  done s.cfg.cost.ldRRNN (setPair p nn s)

/-- `LD r,r'` (R152): the destination first. -/
def loadReg (r r' : Reg8) (s : State) : Result :=
  done s.cfg.cost.ldRR (setReg r (s.reg r') s)

/-- `LD (rr),A` for BC, DE (R153) and HL (R154). -/
def storeAccAt (p : Pair) (s : State) : Result :=
  done s.cfg.cost.ldAtRRA (memWrite (s.pair p) s.a s)

/-- `LD (HL-),A` (R155): the store uses HL before the decrement; Z and N from the 16-bit decrement (D10). -/
def storeAccDec (s : State) : Result :=
  let v := s.pair .HL - 1
  done s.cfg.cost.ldAtHLDecA
    (setFlag .N true (setFlag .Z (v == 0) (setPair .HL v (memWrite (s.pair .HL) s.a s))))

/-- `LDH (n),A` (R156). -/
def storeHigh (n : Byte) (s : State) : Result :=
  done s.cfg.cost.ldhNA (memWrite (highPage n) s.a s)

/-- `LDH A,(n)` (R157): A is not written when the read faults. -/
def loadHigh (n : Byte) (s : State) : Result :=
  match memRead s (highPage n) with
  | .ok v => done s.cfg.cost.ldhAN (setReg .A v s)
  | .error r => raise r

/-- `LD BC,nn`, opcode 01 (R151). -/
def exec_ld_BC_nn (nn : Word) (s : State) : Result := loadPairImm .BC nn s

/-- `LD (BC),A`, opcode 02 (R153). -/
def exec_ld_atBC_A (s : State) : Result := storeAccAt .BC s

/-- `LD B,n`, opcode 06 (R150). -/
def exec_ld_B_n (n : Byte) (s : State) : Result := loadImm .B n s

/-- `LD C,n`, opcode 0E (R150). -/
def exec_ld_C_n (n : Byte) (s : State) : Result := loadImm .C n s

/-- `LD DE,nn`, opcode 11 (R151). -/
def exec_ld_DE_nn (nn : Word) (s : State) : Result := loadPairImm .DE nn s

/-- `LD (DE),A`, opcode 12 (R153). -/
def exec_ld_atDE_A (s : State) : Result := storeAccAt .DE s

/-- `LD D,n`, opcode 16 (R150). -/
def exec_ld_D_n (n : Byte) (s : State) : Result := loadImm .D n s

/-- `LD E,n`, opcode 1E (R150). -/
def exec_ld_E_n (n : Byte) (s : State) : Result := loadImm .E n s

/-- `LD HL,nn`, opcode 21 (R151). -/
def exec_ld_HL_nn (nn : Word) (s : State) : Result := loadPairImm .HL nn s

/-- `LD H,n`, opcode 26 (R150). -/
def exec_ld_H_n (n : Byte) (s : State) : Result := loadImm .H n s

/-- `LD L,n`, opcode 2E (R150). -/
def exec_ld_L_n (n : Byte) (s : State) : Result := loadImm .L n s

/-- `LD (HL-),A`, opcode 32 (R155). -/
def exec_ld_atHLdec_A (s : State) : Result := storeAccDec s

/-- `LD A,n`, opcode 3E (R150). -/
def exec_ld_A_n (n : Byte) (s : State) : Result := loadImm .A n s

/-- `LD B,B`, opcode 40 (R152). -/
def exec_ld_B_B (s : State) : Result := loadReg .B .B s

/-- `LD B,C`, opcode 41 (R152). -/
def exec_ld_B_C (s : State) : Result := loadReg .B .C s

/-- `LD B,D`, opcode 42 (R152). -/
def exec_ld_B_D (s : State) : Result := loadReg .B .D s

/-- `LD B,E`, opcode 43 (R152). -/
def exec_ld_B_E (s : State) : Result := loadReg .B .E s

/-- `LD B,H`, opcode 44 (R152). -/
def exec_ld_B_H (s : State) : Result := loadReg .B .H s

/-- `LD B,L`, opcode 45 (R152). -/
def exec_ld_B_L (s : State) : Result := loadReg .B .L s

/-- `LD B,A`, opcode 47 (R152). -/
def exec_ld_B_A (s : State) : Result := loadReg .B .A s

/-- `LD C,B`, opcode 48 (R152). -/
def exec_ld_C_B (s : State) : Result := loadReg .C .B s

/-- `LD C,C`, opcode 49 (R152). -/
def exec_ld_C_C (s : State) : Result := loadReg .C .C s

/-- `LD C,D`, opcode 4A (R152). -/
def exec_ld_C_D (s : State) : Result := loadReg .C .D s

/-- `LD C,E`, opcode 4B (R152). -/
def exec_ld_C_E (s : State) : Result := loadReg .C .E s

/-- `LD C,H`, opcode 4C (R152). -/
def exec_ld_C_H (s : State) : Result := loadReg .C .H s

/-- `LD C,L`, opcode 4D (R152). -/
def exec_ld_C_L (s : State) : Result := loadReg .C .L s

/-- `LD C,A`, opcode 4F (R152). -/
def exec_ld_C_A (s : State) : Result := loadReg .C .A s

/-- `LD D,B`, opcode 50 (R152). -/
def exec_ld_D_B (s : State) : Result := loadReg .D .B s

/-- `LD D,C`, opcode 51 (R152). -/
def exec_ld_D_C (s : State) : Result := loadReg .D .C s

/-- `LD D,D`, opcode 52 (R152). -/
def exec_ld_D_D (s : State) : Result := loadReg .D .D s

/-- `LD D,E`, opcode 53 (R152). -/
def exec_ld_D_E (s : State) : Result := loadReg .D .E s

/-- `LD D,H`, opcode 54 (R152). -/
def exec_ld_D_H (s : State) : Result := loadReg .D .H s

/-- `LD D,L`, opcode 55 (R152). -/
def exec_ld_D_L (s : State) : Result := loadReg .D .L s

/-- `LD D,A`, opcode 57 (R152). -/
def exec_ld_D_A (s : State) : Result := loadReg .D .A s

/-- `LD E,B`, opcode 58 (R152). -/
def exec_ld_E_B (s : State) : Result := loadReg .E .B s

/-- `LD E,C`, opcode 59 (R152). -/
def exec_ld_E_C (s : State) : Result := loadReg .E .C s

/-- `LD E,D`, opcode 5A (R152). -/
def exec_ld_E_D (s : State) : Result := loadReg .E .D s

/-- `LD E,E`, opcode 5B (R152). -/
def exec_ld_E_E (s : State) : Result := loadReg .E .E s

/-- `LD E,H`, opcode 5C (R152). -/
def exec_ld_E_H (s : State) : Result := loadReg .E .H s

/-- `LD E,L`, opcode 5D (R152). -/
def exec_ld_E_L (s : State) : Result := loadReg .E .L s

/-- `LD E,A`, opcode 5F (R152). -/
def exec_ld_E_A (s : State) : Result := loadReg .E .A s

/-- `LD H,B`, opcode 60 (R152). -/
def exec_ld_H_B (s : State) : Result := loadReg .H .B s

/-- `LD H,C`, opcode 61 (R152). -/
def exec_ld_H_C (s : State) : Result := loadReg .H .C s

/-- `LD H,D`, opcode 62 (R152). -/
def exec_ld_H_D (s : State) : Result := loadReg .H .D s

/-- `LD H,E`, opcode 63 (R152). -/
def exec_ld_H_E (s : State) : Result := loadReg .H .E s

/-- `LD H,H`, opcode 64 (R152). -/
def exec_ld_H_H (s : State) : Result := loadReg .H .H s

/-- `LD H,L`, opcode 65 (R152). -/
def exec_ld_H_L (s : State) : Result := loadReg .H .L s

/-- `LD H,A`, opcode 67 (R152). -/
def exec_ld_H_A (s : State) : Result := loadReg .H .A s

/-- `LD L,B`, opcode 68 (R152). -/
def exec_ld_L_B (s : State) : Result := loadReg .L .B s

/-- `LD L,C`, opcode 69 (R152). -/
def exec_ld_L_C (s : State) : Result := loadReg .L .C s

/-- `LD L,D`, opcode 6A (R152). -/
def exec_ld_L_D (s : State) : Result := loadReg .L .D s

/-- `LD L,E`, opcode 6B (R152). -/
def exec_ld_L_E (s : State) : Result := loadReg .L .E s

/-- `LD L,H`, opcode 6C (R152). -/
def exec_ld_L_H (s : State) : Result := loadReg .L .H s

/-- `LD L,L`, opcode 6D (R152). -/
def exec_ld_L_L (s : State) : Result := loadReg .L .L s

/-- `LD L,A`, opcode 6F (R152). -/
def exec_ld_L_A (s : State) : Result := loadReg .L .A s

/-- `LD (HL),A`, opcode 77 (R154). -/
def exec_ld_atHL_A (s : State) : Result := storeAccAt .HL s

/-- `LD A,B`, opcode 78 (R152). -/
def exec_ld_A_B (s : State) : Result := loadReg .A .B s

/-- `LD A,C`, opcode 79 (R152). -/
def exec_ld_A_C (s : State) : Result := loadReg .A .C s

/-- `LD A,D`, opcode 7A (R152). -/
def exec_ld_A_D (s : State) : Result := loadReg .A .D s

/-- `LD A,E`, opcode 7B (R152). -/
def exec_ld_A_E (s : State) : Result := loadReg .A .E s

/-- `LD A,H`, opcode 7C (R152). -/
def exec_ld_A_H (s : State) : Result := loadReg .A .H s

/-- `LD A,L`, opcode 7D (R152). -/
def exec_ld_A_L (s : State) : Result := loadReg .A .L s

/-- `LD A,A`, opcode 7F (R152). -/
def exec_ld_A_A (s : State) : Result := loadReg .A .A s

/-- `LDH (n),A`, opcode E0 (R156). -/
def exec_ldh_n_A (n : Byte) (s : State) : Result := storeHigh n s

/-- `LDH A,(n)`, opcode F0 (R157). -/
def exec_ldh_A_n (n : Byte) (s : State) : Result := loadHigh n s

end Sys2Proof.Machine
end

