-- ==== Sys2Proof/Machine/System.lean ====
section
/-! DEFINITION. NOP and the interrupt mask: DI, EI (45_system.md R190 to R193). A meaning runs after the opcode
fetch, with PC past the instruction (10_state.md R26; log 8). -/

namespace Sys2Proof.Machine

/-- `NOP` (R190). -/
def nopBody (s : State) : Result := done s.cfg.cost.nop s

/-- `DI` and `EI` (R191, R192): the latch is written at once (D28). -/
def setIme (on : Bool) (s : State) : Result :=
  done (if on then s.cfg.cost.ei else s.cfg.cost.di) { s with ime := on }

/-- `NOP`, opcode 00 (R190). -/
def exec_nop (s : State) : Result := nopBody s

/-- `DI`, opcode F3 (R191). -/
def exec_di (s : State) : Result := setIme false s

/-- `EI`, opcode FB (R192). -/
def exec_ei (s : State) : Result := setIme true s

end Sys2Proof.Machine
end

