-- ==== Sys2Proof/Machine/Dispatch.lean ====
section
/-! DEFINITION. One arm per instruction (30_encoding.md R93): the meaning each opcode byte selects. -/

namespace Sys2Proof.Machine

def exec (i : Instr) (s : State) : Host.Outcome State Fault Refusal :=
  match i with
  | .nop => Sys2Proof.Machine.exec_nop s
  | .ld_BC_nn nn => Sys2Proof.Machine.exec_ld_BC_nn nn s
  | .ld_atBC_A => Sys2Proof.Machine.exec_ld_atBC_A s
  | .dec_B => Sys2Proof.Machine.exec_dec_B s
  | .ld_B_n n => Sys2Proof.Machine.exec_ld_B_n n s
  | .dec_BC => Sys2Proof.Machine.exec_dec_BC s
  | .dec_C => Sys2Proof.Machine.exec_dec_C s
  | .ld_C_n n => Sys2Proof.Machine.exec_ld_C_n n s
  | .ld_DE_nn nn => Sys2Proof.Machine.exec_ld_DE_nn nn s
  | .ld_atDE_A => Sys2Proof.Machine.exec_ld_atDE_A s
  | .dec_D => Sys2Proof.Machine.exec_dec_D s
  | .ld_D_n n => Sys2Proof.Machine.exec_ld_D_n n s
  | .dec_DE => Sys2Proof.Machine.exec_dec_DE s
  | .dec_E => Sys2Proof.Machine.exec_dec_E s
  | .ld_E_n n => Sys2Proof.Machine.exec_ld_E_n n s
  | .jr_NZ_e e => Sys2Proof.Machine.exec_jr_NZ_e e s
  | .ld_HL_nn nn => Sys2Proof.Machine.exec_ld_HL_nn nn s
  | .dec_H => Sys2Proof.Machine.exec_dec_H s
  | .ld_H_n n => Sys2Proof.Machine.exec_ld_H_n n s
  | .jr_Z_e e => Sys2Proof.Machine.exec_jr_Z_e e s
  | .dec_HL => Sys2Proof.Machine.exec_dec_HL s
  | .dec_L => Sys2Proof.Machine.exec_dec_L s
  | .ld_L_n n => Sys2Proof.Machine.exec_ld_L_n n s
  | .jr_NC_e e => Sys2Proof.Machine.exec_jr_NC_e e s
  | .ld_atHLdec_A => Sys2Proof.Machine.exec_ld_atHLdec_A s
  | .jr_C_e e => Sys2Proof.Machine.exec_jr_C_e e s
  | .dec_A => Sys2Proof.Machine.exec_dec_A s
  | .ld_A_n n => Sys2Proof.Machine.exec_ld_A_n n s
  | .ld_B_B => Sys2Proof.Machine.exec_ld_B_B s
  | .ld_B_C => Sys2Proof.Machine.exec_ld_B_C s
  | .ld_B_D => Sys2Proof.Machine.exec_ld_B_D s
  | .ld_B_E => Sys2Proof.Machine.exec_ld_B_E s
  | .ld_B_H => Sys2Proof.Machine.exec_ld_B_H s
  | .ld_B_L => Sys2Proof.Machine.exec_ld_B_L s
  | .ld_B_A => Sys2Proof.Machine.exec_ld_B_A s
  | .ld_C_B => Sys2Proof.Machine.exec_ld_C_B s
  | .ld_C_C => Sys2Proof.Machine.exec_ld_C_C s
  | .ld_C_D => Sys2Proof.Machine.exec_ld_C_D s
  | .ld_C_E => Sys2Proof.Machine.exec_ld_C_E s
  | .ld_C_H => Sys2Proof.Machine.exec_ld_C_H s
  | .ld_C_L => Sys2Proof.Machine.exec_ld_C_L s
  | .ld_C_A => Sys2Proof.Machine.exec_ld_C_A s
  | .ld_D_B => Sys2Proof.Machine.exec_ld_D_B s
  | .ld_D_C => Sys2Proof.Machine.exec_ld_D_C s
  | .ld_D_D => Sys2Proof.Machine.exec_ld_D_D s
  | .ld_D_E => Sys2Proof.Machine.exec_ld_D_E s
  | .ld_D_H => Sys2Proof.Machine.exec_ld_D_H s
  | .ld_D_L => Sys2Proof.Machine.exec_ld_D_L s
  | .ld_D_A => Sys2Proof.Machine.exec_ld_D_A s
  | .ld_E_B => Sys2Proof.Machine.exec_ld_E_B s
  | .ld_E_C => Sys2Proof.Machine.exec_ld_E_C s
  | .ld_E_D => Sys2Proof.Machine.exec_ld_E_D s
  | .ld_E_E => Sys2Proof.Machine.exec_ld_E_E s
  | .ld_E_H => Sys2Proof.Machine.exec_ld_E_H s
  | .ld_E_L => Sys2Proof.Machine.exec_ld_E_L s
  | .ld_E_A => Sys2Proof.Machine.exec_ld_E_A s
  | .ld_H_B => Sys2Proof.Machine.exec_ld_H_B s
  | .ld_H_C => Sys2Proof.Machine.exec_ld_H_C s
  | .ld_H_D => Sys2Proof.Machine.exec_ld_H_D s
  | .ld_H_E => Sys2Proof.Machine.exec_ld_H_E s
  | .ld_H_H => Sys2Proof.Machine.exec_ld_H_H s
  | .ld_H_L => Sys2Proof.Machine.exec_ld_H_L s
  | .ld_H_A => Sys2Proof.Machine.exec_ld_H_A s
  | .ld_L_B => Sys2Proof.Machine.exec_ld_L_B s
  | .ld_L_C => Sys2Proof.Machine.exec_ld_L_C s
  | .ld_L_D => Sys2Proof.Machine.exec_ld_L_D s
  | .ld_L_E => Sys2Proof.Machine.exec_ld_L_E s
  | .ld_L_H => Sys2Proof.Machine.exec_ld_L_H s
  | .ld_L_L => Sys2Proof.Machine.exec_ld_L_L s
  | .ld_L_A => Sys2Proof.Machine.exec_ld_L_A s
  | .ld_atHL_A => Sys2Proof.Machine.exec_ld_atHL_A s
  | .ld_A_B => Sys2Proof.Machine.exec_ld_A_B s
  | .ld_A_C => Sys2Proof.Machine.exec_ld_A_C s
  | .ld_A_D => Sys2Proof.Machine.exec_ld_A_D s
  | .ld_A_E => Sys2Proof.Machine.exec_ld_A_E s
  | .ld_A_H => Sys2Proof.Machine.exec_ld_A_H s
  | .ld_A_L => Sys2Proof.Machine.exec_ld_A_L s
  | .ld_A_A => Sys2Proof.Machine.exec_ld_A_A s
  | .and_B => Sys2Proof.Machine.exec_and_B s
  | .and_C => Sys2Proof.Machine.exec_and_C s
  | .and_D => Sys2Proof.Machine.exec_and_D s
  | .and_E => Sys2Proof.Machine.exec_and_E s
  | .and_H => Sys2Proof.Machine.exec_and_H s
  | .and_L => Sys2Proof.Machine.exec_and_L s
  | .and_A => Sys2Proof.Machine.exec_and_A s
  | .xor_B => Sys2Proof.Machine.exec_xor_B s
  | .xor_C => Sys2Proof.Machine.exec_xor_C s
  | .xor_D => Sys2Proof.Machine.exec_xor_D s
  | .xor_E => Sys2Proof.Machine.exec_xor_E s
  | .xor_H => Sys2Proof.Machine.exec_xor_H s
  | .xor_L => Sys2Proof.Machine.exec_xor_L s
  | .xor_A => Sys2Proof.Machine.exec_xor_A s
  | .cp_B => Sys2Proof.Machine.exec_cp_B s
  | .cp_C => Sys2Proof.Machine.exec_cp_C s
  | .cp_D => Sys2Proof.Machine.exec_cp_D s
  | .cp_E => Sys2Proof.Machine.exec_cp_E s
  | .cp_H => Sys2Proof.Machine.exec_cp_H s
  | .cp_L => Sys2Proof.Machine.exec_cp_L s
  | .cp_A => Sys2Proof.Machine.exec_cp_A s
  | .ret_NZ => Sys2Proof.Machine.exec_ret_NZ s
  | .jp_nn nn => Sys2Proof.Machine.exec_jp_nn nn s
  | .ret_Z => Sys2Proof.Machine.exec_ret_Z s
  | .ret => Sys2Proof.Machine.exec_ret s
  | .call_nn nn => Sys2Proof.Machine.exec_call_nn nn s
  | .ret_NC => Sys2Proof.Machine.exec_ret_NC s
  | .ret_C => Sys2Proof.Machine.exec_ret_C s
  | .ldh_n_A n => Sys2Proof.Machine.exec_ldh_n_A n s
  | .and_n n => Sys2Proof.Machine.exec_and_n n s
  | .xor_n n => Sys2Proof.Machine.exec_xor_n n s
  | .ldh_A_n n => Sys2Proof.Machine.exec_ldh_A_n n s
  | .di => Sys2Proof.Machine.exec_di s
  | .ei => Sys2Proof.Machine.exec_ei s
  | .cp_n n => Sys2Proof.Machine.exec_cp_n n s

end Sys2Proof.Machine
end

