-- ==== Sys2Proof/Machine/Engine.lean ====
section
/-! DEFINITION. The execution engine: the opcode fetch, the dispatch, the operand fetches, `tick`, and the trace
port (41_engine.md R120 to R136). -/

namespace Sys2Proof.Machine

/-- The executing tick (R125): fetch at PC, PC + 1, dispatch, operand fetches, then the meaning, which ends with
`PEND <- cycles - 1` (R126; log 8). The first raise ends it (R207). A byte of IMPL without a row of the dispatch
table, possible only in an illegal configuration, is unimplemented too (log 16). -/
def fetchExecute (s : State) : Result :=
  match memRead s s.pc with
  | .error r => raise r
  | .ok op =>
    let s1 := setPc (s.pc + 1) s
    if !s.cfg.impl.contains op then raise (.unimplementedOpcode op s.pc)
    else
      match lookup op with
      | none => raise (.unimplementedOpcode op s.pc)
      | some (.op i) => exec i s1
      | some (.opN f) =>
        match imm8 s1 with
        | .error r => raise r
        | .ok (n, s2) => exec (f n) s2
      | some (.opNN f) =>
        match imm16 s1 with
        | .error r => raise r
        | .ok (nn, s2) => exec (f nn) s2

/-- `tick()` (R127): refused before the first `begin` (R240); nothing while FLT is set (R133); one idle cycle
while PEND is positive (R123); otherwise the executing tick (R124). -/
def tick (s : State) : Result :=
  if !s.begun then .refused .tickBeforeBegin
  else if s.flt.isSome then .next s
  else if s.pend = 0 then fetchExecute s
  else .next (setPend (s.pend - 1) s)

/-- What the trace port presents during the tick from a state (R135, R222): the fetch address and the opcode
byte, once per executed instruction, after a successful decode; nothing when the port is absent (log 11). -/
def tracePort (s : State) : Option (Word × Byte) :=
  if s.cfg.trace && s.begun && s.flt.isNone && s.pend == 0 then
    match memRead s s.pc with
    | .error _ => none
    | .ok op => if s.cfg.impl.contains op && (lookup op).isSome then some (s.pc, op) else none
  else none

/-- The bytes at `n` successive addresses from `a` on, each address wrapping (R80), read through the address
decoder (R71). -/
def readBytes (s : State) (a : Word) : Nat → Except Fault (List Byte)
  | 0 => .ok []
  | n + 1 =>
    match memRead s a with
    | .error r => .error r
    | .ok v =>
      match readBytes s (a + 1) n with
      | .error r => .error r
      | .ok vs => .ok (v :: vs)

/-- Whether an address can hold a placed byte: it lies in ROM or in WRAM. -/
def placeable (cfg : Config) (a : Word) : Bool := region cfg a == .rom || region cfg a == .wram

/-- The image a validator holds, or an image of zeros. -/
def heldCartridge : Validator → Cartridge
  | .loaded c => c
  | .unloaded => ⟨[], 0, 0, 0, [], 0⟩
  | .failed => ⟨[], 0, 0, 0, [], 0⟩

/-- Places one byte in the image or in WRAM, for `State.withFetchWord` only: no operation of the machine writes
the image. -/
def placeByte (a : Word) (v : Byte) (s : State) : State :=
  match region s.cfg a with
  | .rom =>
    let c := heldCartridge s.cv
    { s with cv := .loaded { c with rom := c.rom.write a.toNat v } }
  | .wram => { s with wram := s.wram.write (a.toNat - wramBase) v }
  | .io => s
  | .unmapped => s

/-- Places bytes at successive addresses. -/
def placeBytes (a : Word) : List Byte → State → State
  | [], s => s
  | v :: bytes, s => placeBytes (a + 1) bytes (placeByte a v s)

/-- A state whose next tick fetches and runs the given instruction (log 9): a cartridge is loaded, `begin` has
been called, no fault is latched, no cycle is pending, the three bytes stand at PC, and PC is 0x0000 where they
could not stand at the PC of `s`. -/
def placeInstr (s : State) (bytes : List Byte) : State :=
  let fits := placeable s.cfg s.pc && placeable s.cfg (s.pc + 1) && placeable s.cfg (s.pc + 2)
  let pc := if fits then s.pc else 0
  placeBytes pc bytes
    { s with pc := pc, pend := 0, flt := none, begun := true, cv := .loaded (heldCartridge s.cv) }

end Sys2Proof.Machine
end

