-- ==== Sys2Proof/Machine/Step.lean ====
section
/-! DEFINITION. The step of the machine: one `tick()` (41_engine.md R121, R127), one machine cycle. -/

namespace Sys2Proof.Machine

/-- One step is one `tick()` (R121, R127). -/
def step (s : State) : Host.Outcome State Fault Refusal := tick s

/-- `s` with an instruction placed where the next step fetches it (log 9). -/
def State.withFetchWord (s : State) (nbits w : Nat) : State := placeInstr s (tableBytes nbits w)

end Sys2Proof.Machine
end

