-- ==== Sys2Proof/Machine/HostOps.lean ====
section
/-! DEFINITION. The host interface (60_exceptions.md R223): a session, the host's operations on it, and its
read-only view. -/

namespace Sys2Proof.Machine

/-- A session (R12, R230): before the CPU Core exists there is a configuration and a Cartridge Validator;
afterwards there is the machine, and a count of the faults so far, which numbers the free values of
`latchFault` (log 3). -/
inductive Session where
  | noCore (cfg : Config) (cv : Validator)
  | core (s : State) (faults : Nat)
  deriving DecidableEq, Repr

/-- The host's operations (R223); the reads are functions below. -/
inductive HostOp where
  | validate (bytes : List Byte)
  | construct
  | reset
  | begin
  | tick
  deriving DecidableEq, Repr

/-- What the host sees of an operation that was performed. -/
inductive Response where
  | done
  /-- `validate` failed (R104, R205). -/
  | loadError (e : LoadError)
  /-- The operation raised a fault, now in FLT (R132, R208, R233). -/
  | fault (r : Fault)
  deriving DecidableEq, Repr

/-- Why an operation has no meaning. -/
inductive HostRefusal where
  /-- `validate` of a buffer whose length is not 0x8000 (R102, U4, D14). Safe. -/
  | imageLength
  /-- A second `validate` on one Cartridge Validator (R109, R223, U10). Safe. -/
  | alreadyValidated
  /-- `validate` or `construct` once the CPU Core exists (R223). Safe. -/
  | coreExists
  /-- `reset`, `begin` or `tick` before the CPU Core exists (R12, R223). Safe. -/
  | noCore
  /-- The engine refuses the tick (R240). Safe. -/
  | engine (r : Refusal)
  deriving DecidableEq, Repr

/-- One operation of the host: a next session with the response, or a refusal. -/
inductive HostResult where
  | answer (x : Session) (r : Response)
  | refused (r : HostRefusal)
  deriving DecidableEq, Repr

/-- A new session: a Cartridge Validator just constructed (R45). -/
def Session.start (cfg : Config) : Session := .noCore cfg .unloaded

/-- `validate(bytes)` before the CPU Core exists (R104, R109). -/
def hostValidate (cfg : Config) (cv : Validator) (bytes : List Byte) : HostResult :=
  match cv with
  | .unloaded =>
    if bytes.length ≠ romLen then .refused .imageLength
    else
      match validate (Image.ofBytes bytes) with
      | .ok c => .answer (.noCore cfg (.loaded c)) .done
      | .error e => .answer (.noCore cfg .failed) (.loadError e)
  | .failed => .refused .alreadyValidated
  | .loaded _ => .refused .alreadyValidated

/-- `begin()` as the host sees it: its own fault is reported (R233). -/
def hostBegin (s : State) (k : Nat) : HostResult :=
  match (beginOp s).flt with
  | none => .answer (.core (beginOp s) k) .done
  | some r => .answer (.core (beginOp s) k) (.fault r)

/-- `tick()` as the host sees it: a fault is latched and reported (R127, R132, R208). -/
def hostTick (s : State) (k : Nat) : HostResult :=
  match tick s with
  | .next t => .answer (.core t k) .done
  | .fault r => .answer (.core (latchFault r k s) (k + 1)) (.fault r)
  | .refused r => .refused (.engine r)

/-- The host's operations (R223). -/
def hostStep (op : HostOp) (x : Session) : HostResult :=
  match op, x with
  | .validate bytes, .noCore cfg cv => hostValidate cfg cv bytes
  | .validate _, .core _ _ => .refused .coreExists
  | .construct, .noCore cfg cv => .answer (.core (construct cfg cv) 0) .done
  | .construct, .core _ _ => .refused .coreExists
  | .reset, .core s k => .answer (.core (resetOp s) k) .done
  | .reset, .noCore _ _ => .refused .noCore
  | .begin, .core s k => hostBegin s k
  | .begin, .noCore _ _ => .refused .noCore
  | .tick, .core s k => hostTick s k
  | .tick, .noCore _ _ => .refused .noCore

/-- The host's read-only view of Working Memory by index (R46, D16): the byte `WRAM[k]`, nothing beyond
WRAM_SIZE. -/
def viewWram (s : State) (k : Nat) : Option Byte :=
  if k < s.cfg.wramSize then some (s.wram.read k) else none

/-- The host's read-only view of the registers, flags, latches and FLT (R46, R219, R223). -/
structure HostView where
  a : Byte
  f : Byte
  b : Byte
  c : Byte
  d : Byte
  e : Byte
  h : Byte
  l : Byte
  sp : Word
  pc : Word
  ime : Bool
  flt : Option Fault
  deriving DecidableEq, Repr

/-- What the host reads between operations (R46). -/
def view (s : State) : HostView where
  a := s.a
  f := s.f
  b := s.b
  c := s.c
  d := s.d
  e := s.e
  h := s.h
  l := s.l
  sp := s.sp
  pc := s.pc
  ime := s.ime
  flt := s.flt

end Sys2Proof.Machine
end

