-- ==== Sys2Proof/WellFormed.lean ====
section
/-! DEFINITION. What a legal configuration is (00_scope.md R5, 30_encoding.md R89, R96) and when an instruction
has a handler in a configuration (30_encoding.md R90). Operands carry their width in their type, so every term
of `Instr` is a possible instruction; what can be wrong with it is that its opcode byte is not in IMPL. -/

namespace Sys2Proof

/-- Every cost is at least 1 (R96, R126). -/
def Cost.positive (k : Cost) : Bool :=
  [k.nop, k.jp, k.jrTaken, k.jrNotTaken, k.ldRN, k.ldRRNN, k.ldRR, k.ldAtRRA, k.ldAtHLDecA, k.ldhNA,
    k.ldhAN, k.decR, k.decRR, k.xorR, k.andR, k.cpR, k.xorN, k.andN, k.cpN, k.call, k.ret, k.retTaken,
    k.retNotTaken, k.di, k.ei].all (fun n => 1 ≤ n)

/-- "COST(JR taken) > COST(JR not taken)" (R96). -/
def Cost.jrOrdered (k : Cost) : Bool := k.jrNotTaken < k.jrTaken

/-- "constraint 1 <= WRAM_SIZE <= 0x3F00" (R5, D5). -/
def Config.wramSizeOk (c : Config) : Bool := 1 ≤ c.wramSize && c.wramSize ≤ 0x3F00

/-- "any subset of the default is a legal configuration" (R89, D2). -/
def Config.implOk (c : Config) : Bool := c.impl.all (fun op => Machine.defaultImpl.contains op)

/-- A legal configuration: every constraint of the spec on its parameters. -/
def Config.wellFormed (c : Config) : Bool :=
  c.wramSizeOk && c.implOk && c.cost.positive && c.cost.jrOrdered

/-- An instruction is well formed in a configuration when its opcode byte is in IMPL (R90). -/
def Instr.wellFormed (c : Config) (i : Instr) : Bool := c.impl.contains i.opcode

end Sys2Proof
end

