-- ==== Sys2Proof/Safety.lean ====
section
/-! DEFINITION. What a safe run is, and the invariant of the machine's states. -/

namespace Sys2Proof.Machine

/-- The engine is in the Fetch-decode-execute state (R120) and may tick (R122). -/
abbrev State.ready (s : State) : Prop := s.begun = true ∧ s.flt = none ∧ s.pend = 0

/-- A run of `k` ticks that raises no fault and is not refused. -/
def SafeRun (k : Nat) (s : State) : Prop := ∃ t, Sys2Proof.core.run k s = .next t

/-- The largest COST (R20: a model may bound PEND by it, minus 1). -/
def maxCost (k : Cost) : Nat :=
  [k.nop, k.jp, k.jrTaken, k.jrNotTaken, k.ldRN, k.ldRRNN, k.ldRR, k.ldAtRRA, k.ldAtHLDecA, k.ldhNA,
    k.ldhAN, k.decR, k.decRR, k.xorR, k.andR, k.cpR, k.xorN, k.andN, k.cpN, k.call, k.ret, k.retTaken,
    k.retNotTaken, k.di, k.ei].foldl max 0

/-- Working Memory is in canonical form and lies within WRAM_SIZE (R41). -/
def WramOk (s : State) : Prop := s.wram.wf ∧ ∀ x ∈ s.wram, x.1 < s.cfg.wramSize

/-- Bits 3 to 0 of F are 0 (R32) and the C flag is 0 (R35); not claimed of a state a fault left behind (log 3). -/
def FlagsOk (s : State) : Prop := s.f &&& 0x0F = 0 ∧ s.flag .C = false

/-- PEND is below the largest cost (R20, R126). -/
def PendOk (s : State) : Prop := s.pend ≤ maxCost s.cfg.cost - 1

/-- A loaded cartridge is what `validate` accepts (R104): its image lies in ROM_LEN bytes, passes the three
checks, and the extracted values are those of the image. -/
def CartridgeOk (v : Validator) : Prop :=
  ∀ c, v = .loaded c → c.rom.wf ∧ (∀ x ∈ c.rom, x.1 < romLen) ∧ validate ⟨romLen, c.rom⟩ = .ok c

/-- The invariant of the machine's states that no fault has left behind. -/
def Inv (s : State) : Prop := WramOk s ∧ FlagsOk s ∧ PendOk s ∧ CartridgeOk s.cv

/-- The invariant of the machine's states in a session: nothing is known of F while a fault is latched (R209, U1,
log 3). -/
def LatchedInv (s : State) : Prop := WramOk s ∧ (s.flt = none → FlagsOk s) ∧ PendOk s ∧ CartridgeOk s.cv

end Sys2Proof.Machine
end

