-- ==== Sys2Proof/Certificates/Slice0/Obligations.lean ====
section
/-! DEFINITION. The statements for the provers. Tables of the spec that several statements use come first; every
statement's docstring names the rule it formalises. Clauses that rest on a decision of the spec (D<n>) or of the
model (log <n>) name it. -/

namespace Sys2Proof.Machine

/-! ## Vocabulary -/

/-- Every 8-bit register outside the list is unchanged. -/
def RegsKept (written : List Reg8) (s t : State) : Prop := ∀ r, r ∉ written → t.reg r = s.reg r

/-- Every flag outside the list is unchanged, and so are bits 3 to 0 of F. -/
def FlagsKept (written : List Flag) (s t : State) : Prop :=
  (∀ x, x ∉ written → t.flag x = s.flag x) ∧ t.f &&& 0x0F = s.f &&& 0x0F

/-- The fault latch, the Cartridge Validator, the parameters and the model's `begun` are unchanged. -/
def SystemKept (s t : State) : Prop :=
  t.flt = s.flt ∧ t.cv = s.cv ∧ t.cfg = s.cfg ∧ t.begun = s.begun

/-- Every byte of the address space reads as before (or faults as before). -/
def MemoryKept (s t : State) : Prop := ∀ x, memRead t x = memRead s x

/-- Every byte of the address space outside one address reads as before, apart from the window of an attached
device. -/
def MemoryKeptBut (w : Word) (s t : State) : Prop :=
  ∀ x, x ≠ w → (s.cfg.ioBacking = .none ∨ region s.cfg x ≠ .io) → memRead t x = memRead s x

/-- COST of a class, taken or not (R96). -/
def formCost (k : Cost) (taken : Bool) : Form → Nat
  | .nop => k.nop
  | .ldRRnn _ _ => k.ldRRNN
  | .ldAtRRA _ => k.ldAtRRA
  | .decRR _ => k.decRR
  | .decR _ => k.decR
  | .ldRn _ _ => k.ldRN
  | .jr _ _ => if taken then k.jrTaken else k.jrNotTaken
  | .ldAtHLdecA => k.ldAtHLDecA
  | .ldRR _ _ => k.ldRR
  | .andR _ => k.andR
  | .xorR _ => k.xorR
  | .cpR _ => k.cpR
  | .retCc _ => if taken then k.retTaken else k.retNotTaken
  | .jp _ => k.jp
  | .ret => k.ret
  | .call _ => k.call
  | .ldhNA _ => k.ldhNA
  | .andN _ => k.andN
  | .xorN _ => k.xorN
  | .ldhAN _ => k.ldhAN
  | .di => k.di
  | .cpN _ => k.cpN
  | .ei => k.ei

/-- Whether an instruction transfers control from a state (R27): a taken JR or RET cc, or JP, CALL, RET. -/
def transfers (s : State) : Form → Bool
  | .nop => false
  | .ldRRnn _ _ => false
  | .ldAtRRA _ => false
  | .decRR _ => false
  | .decR _ => false
  | .ldRn _ _ => false
  | .jr c _ => cond s c
  | .ldAtHLdecA => false
  | .ldRR _ _ => false
  | .andR _ => false
  | .xorR _ => false
  | .cpR _ => false
  | .retCc c => cond s c
  | .jp _ => true
  | .ret => true
  | .call _ => true
  | .ldhNA _ => false
  | .andN _ => false
  | .xorN _ => false
  | .ldhAN _ => false
  | .di => false
  | .cpN _ => false
  | .ei => false

/-- The 8-bit registers each class writes (R24). -/
def regsWritten : Form → List Reg8
  | .nop => []
  | .ldRRnn p _ => [Pair.high p, Pair.low p]
  | .ldAtRRA _ => []
  | .decRR p => [Pair.high p, Pair.low p]
  | .decR r => [r]
  | .ldRn r _ => [r]
  | .jr _ _ => []
  | .ldAtHLdecA => [.H, .L]
  | .ldRR r _ => [r]
  | .andR _ => [.A]
  | .xorR _ => [.A]
  | .cpR _ => []
  | .retCc _ => []
  | .jp _ => []
  | .ret => []
  | .call _ => []
  | .ldhNA _ => []
  | .andN _ => [.A]
  | .xorN _ => [.A]
  | .ldhAN _ => [.A]
  | .di => []
  | .cpN _ => []
  | .ei => []

/-- What an instruction writes into the four flags: `none` is R34's "-". -/
def writes (z n h c : Option Bool) : Flag → Option Bool
  | .Z => z
  | .N => n
  | .H => h
  | .C => c

/-- What each class writes into a flag, from the state before it: R34's table, columns Z, N, H, C. -/
def flagWritten (s : State) : Form → Flag → Option Bool
  | .nop => writes none none none none
  | .ldRRnn _ _ => writes none none none none
  | .ldAtRRA _ => writes none none none none
  | .decRR _ => writes none none none none
  | .decR r => writes (some (s.reg r = 1)) (some true) none none
  | .ldRn _ n => writes (some (n = 0)) none none none
  | .jr _ _ => writes none none none none
  | .ldAtHLdecA => writes (some (s.pair .HL = 1)) (some true) none none
  | .ldRR _ _ => writes none none none none
  | .andR r => writes (some (s.a &&& s.reg r = 0)) (some false) (some true) (some false)
  | .xorR r => writes (some (s.a = s.reg r)) none none none
  | .cpR r => writes (some (s.a = s.reg r)) none none none
  | .retCc _ => writes none none none none
  | .jp _ => writes none none none none
  | .ret => writes none none none none
  | .call _ => writes none none none none
  | .ldhNA _ => writes none none none none
  | .andN n => writes (some (s.a &&& n = 0)) (some false) (some true) (some false)
  | .xorN n => writes (some (s.a = n)) none none none
  | .ldhAN _ => writes none none none none
  | .di => writes none none none none
  | .cpN n => writes (some (s.a = n)) none none none
  | .ei => writes none none none none

/-- The addresses a class stores a byte to, by the effective address its meaning uses (R158, R64). -/
def storedAddresses (s : State) : Form → List Word
  | .nop => []
  | .ldRRnn _ _ => []
  | .ldAtRRA p => [s.pair p]
  | .decRR _ => []
  | .decR _ => []
  | .ldRn _ _ => []
  | .jr _ _ => []
  | .ldAtHLdecA => [s.pair .HL]
  | .ldRR _ _ => []
  | .andR _ => []
  | .xorR _ => []
  | .cpR _ => []
  | .retCc _ => []
  | .jp _ => []
  | .ret => []
  | .call _ => [s.sp - 1, s.sp - 2]
  | .ldhNA n => [highPage n]
  | .andN _ => []
  | .xorN _ => []
  | .ldhAN _ => []
  | .di => []
  | .cpN _ => []
  | .ei => []

/-- The length of each class in bytes (R82). -/
def formLength : Form → Nat
  | .nop => 1
  | .ldRRnn _ _ => 3
  | .ldAtRRA _ => 1
  | .decRR _ => 1
  | .decR _ => 1
  | .ldRn _ _ => 2
  | .jr _ _ => 2
  | .ldAtHLdecA => 1
  | .ldRR _ _ => 1
  | .andR _ => 1
  | .xorR _ => 1
  | .cpR _ => 1
  | .retCc _ => 1
  | .jp _ => 3
  | .ret => 1
  | .call _ => 3
  | .ldhNA _ => 2
  | .andN _ => 2
  | .xorN _ => 2
  | .ldhAN _ => 2
  | .di => 1
  | .cpN _ => 2
  | .ei => 1

/-- The same machine with the trace port present or absent. -/
def withTrace (b : Bool) (s : State) : State := { s with cfg := { s.cfg with trace := b } }

/-- The same outcome, its next state changed. -/
def mapNext (g : State → State) : Result → Result
  | .next t => .next (g t)
  | .fault r => .fault r
  | .refused r => .refused r

/-- The invariant of a session: of the machine once it exists, of the validator before. -/
def SessionInv : Session → Prop
  | .noCore _ cv => CartridgeOk cv
  | .core s _ => LatchedInv s

/-- The Cartridge Validator of a session. -/
def Session.cv : Session → Validator
  | .noCore _ cv => cv
  | .core s _ => s.cv

/-- Two images of one length that agree at every offset but one. -/
def Image.SameBut (k : Nat) (img img' : Image) : Prop :=
  img'.len = img.len ∧ ∀ i, i ≠ k → img'.byte i = img.byte i

end Sys2Proof.Machine

open Sys2Proof Sys2Proof.Machine

/-! ## Encoding -/

/-- Sixteen words written out bit by bit from R88's patterns, operands after them, decode to the instruction they
stand for (byte values: decision D1). They cover sixteen of the classes of R88, and none of JP, RET, LDH (n),A,
LD (HL),A, XOR n, AND r, CP r and DI, whose words stand in the tests. -/
def Obligations.SpelledWordsDecode : Prop :=
  decode [0b00000000#8] = .ok (.nop, []) ∧
  decode [0b00111110#8, 0x05#8] = .ok (.ld_A_n 0x05, []) ∧
  decode [0b00100001#8, 0x03#8, 0xC0#8] = .ok (.ld_HL_nn 0xC003, []) ∧
  decode [0b01000111#8] = .ok (.ld_B_A, []) ∧
  decode [0b00010010#8] = .ok (.ld_atDE_A, []) ∧
  decode [0b00110010#8] = .ok (.ld_atHLdec_A, []) ∧
  decode [0b11110000#8, 0x44#8] = .ok (.ldh_A_n 0x44, []) ∧
  decode [0b00100000#8, 0xFC#8] = .ok (.jr_NZ_e 0xFC, []) ∧
  decode [0b11001101#8, 0x5A#8, 0x01#8] = .ok (.call_nn 0x015A, []) ∧
  decode [0b11001000#8] = .ok (.ret_Z, []) ∧
  decode [0b00000101#8] = .ok (.dec_B, []) ∧
  decode [0b00011011#8] = .ok (.dec_DE, []) ∧
  decode [0b10101111#8] = .ok (.xor_A, []) ∧
  decode [0b11100110#8, 0x0F#8] = .ok (.and_n 0x0F, []) ∧
  decode [0b11111110#8, 0x94#8] = .ok (.cp_n 0x94, []) ∧
  decode [0b11111011#8] = .ok (.ei, [])

/-- Decoding an encoded instruction gives it back, with every operand, and leaves the bytes after it (R80, R81,
R88). -/
def Obligations.DecodeOfEncode : Prop :=
  ∀ (i : Instr) (rest : List Byte), decode (encode i ++ rest) = .ok (i, rest)

/-- Every word has one meaning: what decodes to an instruction is that instruction's encoding. -/
def Obligations.EncodeOfDecode : Prop :=
  ∀ (bytes rest : List Byte) (i : Instr), decode bytes = .ok (i, rest) → bytes = encode i ++ rest

/-- The opcode bytes of the instructions are exactly the 113 bytes of R89 (decisions D1, D2); every other byte
is refused by the decoder, by name (R90). -/
def Obligations.OpcodesAreExactlyImpl : Prop :=
  defaultImpl.length = 113 ∧ defaultImpl.Nodup ∧
  (∀ op, op ∈ defaultImpl ↔ ∃ i : Instr, i.opcode = op) ∧
  (∀ op rest, op ∉ defaultImpl → decode (op :: rest) = .error (.unimplemented op))

/-- Length of each instruction in bytes (R82). -/
def Obligations.InstructionLengths : Prop := ∀ i : Instr, i.length = formLength i.form

/-! ## Engine -/

/-- A step runs the decoded instruction: when the bytes at PC decode to an instruction of IMPL, the step is that
instruction's meaning with PC moved past its bytes (R125, R26; log 8). -/
def Obligations.StepRunsDecodedInstruction : Prop :=
  ∀ (s : State) (bytes : List Byte) (i : Instr), s.ready → readBytes s s.pc i.length = .ok bytes →
    decode bytes = .ok (i, []) → i.wellFormed s.cfg = true →
    step s = exec i { s with pc := s.pc + BitVec.ofNat 16 i.length }

/-- `UnimplementedOpcode(op, a)` (R203): raised when the byte fetched at PC is not in IMPL, with that byte and
that address, whatever follows it. -/
def Obligations.UnimplementedOpcodeStops : Prop :=
  ∀ (s : State) (op : Byte), s.ready → memRead s s.pc = .ok op → s.cfg.impl.contains op = false →
    step s = .fault (.unimplementedOpcode op s.pc)

/-- The first raise in the order opcode fetch, first operand byte, second operand byte ends the tick
(R207). -/
def Obligations.FetchFaultsInOrder : Prop :=
  (∀ (s : State) (r : Fault), s.ready → memRead s s.pc = .error r → step s = .fault r) ∧
  (∀ (s : State) (i : Instr) (r : Fault), s.ready → memRead s s.pc = .ok i.opcode → i.wellFormed s.cfg = true →
    2 ≤ i.length → memRead s (s.pc + 1) = .error r → step s = .fault r) ∧
  (∀ (s : State) (i : Instr) (v : Byte) (r : Fault), s.ready → memRead s s.pc = .ok i.opcode →
    i.wellFormed s.cfg = true → i.length = 3 → memRead s (s.pc + 1) = .ok v →
    memRead s (s.pc + 2) = .error r → step s = .fault r)

/-- What each fault of a step says is so (R202, R203, R204): an unmapped address is outside ROM and WRAM, an
unimplemented opcode is the byte at PC and not an implemented one, and without a cartridge nothing is loaded. -/
def Obligations.FaultRecordsAreAccurate : Prop :=
  ∀ (s : State) (r : Fault), step s = .fault r →
    (∀ w, r = .unmappedAddress w → region s.cfg w = .io ∨ region s.cfg w = .unmapped) ∧
    (∀ op w, r = .unimplementedOpcode op w → w = s.pc ∧ memRead s s.pc = .ok op ∧
      (s.cfg.impl.contains op = false ∨ op ∉ defaultImpl)) ∧
    (r = .cartridgeNotLoaded → s.cv.isLoaded = false)

/-- An idle cycle counts PEND down by one and changes nothing else (R123). -/
def Obligations.IdleTickOnlyCountsDown : Prop :=
  ∀ s : State, s.begun = true → s.flt = none → 0 < s.pend → step s = .next { s with pend := s.pend - 1 }

/-- A latched fault stops the engine: a tick changes nothing (R133, decision D12). -/
def Obligations.LatchedFaultStopsEngine : Prop :=
  ∀ (s : State) (r : Fault), s.begun = true → s.flt = some r → step s = .next s

/-- A tick before any `begin` is refused (R240, decision D26). -/
def Obligations.TickBeforeBeginIsRefused : Prop :=
  ∀ s : State, s.begun = false → step s = .refused .tickBeforeBegin

/-- PEND after an executing tick is the instruction's total cost minus one, by its meaning and by the whole tick;
and where every cost is at least 1 an instruction of cost T occupies exactly T ticks: the executing one and T - 1
idle ones, after which PEND is 0 and nothing else has changed (R126). -/
def Obligations.CostOccupiesThatManyTicks : Prop :=
  (∀ (i : Instr) (s t : State), exec i s = .next t →
    t.pend = formCost s.cfg.cost (transfers s i.form) i.form - 1) ∧
  (∀ (s t : State) (i : Instr), s.ready → memRead s s.pc = .ok i.opcode → step s = .next t →
    t.pend = formCost s.cfg.cost (transfers s i.form) i.form - 1 ∧
    (s.cfg.cost.positive = true →
      Sys2Proof.core.run (formCost s.cfg.cost (transfers s i.form) i.form) s = .next { t with pend := 0 }))

/-- How each instruction advances PC (R27): one that is not a taken control transfer leaves PC at its own
address plus its length. -/
def Obligations.PcAdvancesByLength : Prop :=
  ∀ (s t : State) (i : Instr), s.ready → memRead s s.pc = .ok i.opcode → step s = .next t →
    transfers s i.form = false → t.pc = s.pc + BitVec.ofNat 16 i.length

/-- Code stored to Working Memory is executed there, with no fence between (R71, decision D13): after a store of a
one-byte instruction at PC the next step runs it. -/
def Obligations.StoredCodeRuns : Prop :=
  ∀ (s : State) (i : Instr), s.ready → region s.cfg s.pc = .wram → i.length = 1 → i.wellFormed s.cfg = true →
    step (memWrite s.pc i.opcode s) =
      exec i { memWrite s.pc i.opcode s with pc := s.pc + 1 }

/-- The trace port has no effect on any state; it presents the fetch address and the opcode byte of an executed
instruction, and nothing when absent or in an idle tick (R135, decision D24; log 11). -/
def Obligations.TracePortOnlyObserves : Prop :=
  (∀ (s : State) (b : Bool), step (withTrace b s) = mapNext (withTrace b) (step s)) ∧
  (∀ (s : State) (i : Instr), s.cfg.trace = true → s.ready → memRead s s.pc = .ok i.opcode →
    i.wellFormed s.cfg = true → tracePort s = some (s.pc, i.opcode)) ∧
  (∀ s : State, s.cfg.trace = false ∨ 0 < s.pend → tracePort s = none)

/-! ## Invariants -/

/-- Every step keeps the invariant: Working Memory canonical and within WRAM_SIZE, bits 3 to 0 of F and the C flag
0 (R32, R35), PEND below the largest cost (R20), the cartridge as validated (R40). -/
def Obligations.StepKeepsInvariant : Prop := ∀ s t : State, Inv s → step s = .next t → Inv t

/-- The state after reset meets the invariant. -/
def Obligations.ResetMeetsInvariant : Prop := Inv State.reset

/-- Every operation of the host keeps the invariant of a session, `validate` and a faulting tick included; a new
session meets it (log 20). It claims nothing of F while a fault is latched (R132, R209, U1; log 3); after `reset` or
`begin` (R210), whatever the fault left, the machine meets the whole invariant `Inv` again. -/
def Obligations.HostOperationsKeepInvariant : Prop :=
  (∀ cfg, SessionInv (Session.start cfg)) ∧
  (∀ (op : HostOp) (x y : Session) (r : Response), SessionInv x → hostStep op x = .answer y r → SessionInv y) ∧
  (∀ (op : HostOp) (x : Session) (t : State) (k : Nat) (r : Response), op = .reset ∨ op = .begin → SessionInv x →
    hostStep op x = .answer (.core t k) r → Inv t)

/-- LOADED (R40): 0 at construction, 1 by a successful `validate`, 0 with no image after a failed one; once it
is 1, no operation changes the image or the extracted values. -/
def Obligations.LoadedOnceAndImmutable : Prop :=
  (∀ cfg, (Session.start cfg).cv = .unloaded) ∧
  (∀ (x y : Session) (bytes : List Byte), hostStep (.validate bytes) x = .answer y .done →
    ∃ c, validate (Image.ofBytes bytes) = .ok c ∧ y.cv = .loaded c) ∧
  (∀ (x y : Session) (bytes : List Byte) (e : LoadError),
    hostStep (.validate bytes) x = .answer y (.loadError e) →
    validate (Image.ofBytes bytes) = .error e ∧ y.cv = .failed) ∧
  (∀ (op : HostOp) (x y : Session) (r : Response) (c : Cartridge), x.cv = .loaded c →
    hostStep op x = .answer y r → y.cv = .loaded c)

/-! ## Reset, begin, faults latched -/

/-- `reset()` (R231; FLT and PEND: decisions D12, D17): every register, F and IME zero, SP the configured
constant, PC zero, FLT none; PEND, Working Memory, the cartridge and the parameters unchanged. -/
def Obligations.ResetSetsPowerOnValues : Prop :=
  ∀ s : State, (∀ r, (resetOp s).reg r = 0) ∧ (resetOp s).f = 0 ∧ (resetOp s).sp = s.cfg.spReset ∧
    (resetOp s).pc = 0 ∧ (resetOp s).ime = false ∧ (resetOp s).flt = none ∧ (resetOp s).pend = s.pend ∧
    (resetOp s).wram = s.wram ∧ (resetOp s).cv = s.cv ∧ (resetOp s).cfg = s.cfg ∧
    (resetOp s).begun = s.begun ∧ (resetOp s).ioDev = s.ioDev

/-- Construction (R45, decision D17): every register as `reset` leaves it, Working Memory all 0x00, PEND 0, FLT
none; `State.reset` is that machine with the default parameters and no cartridge (log 4, log 5). -/
def Obligations.PowerOnValues : Prop :=
  (∀ cfg cv, resetOp (construct cfg cv) = construct cfg cv ∧ (construct cfg cv).pend = 0 ∧
    (construct cfg cv).flt = none ∧
    ∀ w, region cfg w = .wram → memRead (construct cfg cv) w = .ok 0) ∧
  State.reset = construct defaultConfig .unloaded

/-- `begin()` (R232): reset, then PC becomes the word at image offset 0x102, low byte first, which is START in a
validated cartridge, and PEND zero; the engine is then ready to execute there. -/
def Obligations.BeginStartsAtStartVector : Prop :=
  ∀ (s : State) (c : Cartridge), s.cv = .loaded c →
    beginOp s = { resetOp s with
      pc := cat (c.rom.read 0x103) (c.rom.read 0x102), pend := 0, begun := true } ∧
    (beginOp s).ready ∧ (CartridgeOk s.cv → (beginOp s).pc = c.start)

/-- `begin()` without a cartridge (R233, decision D27): the fault is latched over the reset values, PC 0x0000,
PEND as it was, and every later tick does nothing. -/
def Obligations.BeginWithoutCartridgeLatches : Prop :=
  ∀ s : State, s.cv.isLoaded = false →
    beginOp s = { resetOp s with flt := some .cartridgeNotLoaded, begun := true } ∧
    (beginOp s).pc = 0 ∧ (beginOp s).pend = s.pend ∧ step (beginOp s) = .next (beginOp s)

/-- Working Memory survives `reset()` and `begin()`; registers do not (R234). -/
def Obligations.WorkingMemorySurvivesReset : Prop :=
  ∀ (s : State) (w : Word) (v : Byte), region s.cfg w = .wram →
    memRead (resetOp (memWrite w v s)) w = .ok v ∧ memRead (beginOp (memWrite w v s)) w = .ok v ∧
    memRead (resetOp s) w = memRead s w ∧ memRead (beginOp s) w = memRead s w ∧
    ∀ r, (resetOp s).reg r = 0 ∧ (beginOp s).reg r = 0

/-- A faulting tick is latched and reported (R132, R208; decision D12): FLT holds the record; PEND, Working Memory,
IME, the cartridge and the parameters are as before; every later tick changes nothing; `reset` and `begin`
clear FLT when a cartridge is loaded (R210). Nothing is said of the other registers (U1). -/
def Obligations.FaultIsLatchedUntilReset : Prop :=
  ∀ (s : State) (k : Nat) (r : Fault), step s = .fault r →
    ∃ t, hostStep .tick (.core s k) = .answer (.core t (k + 1)) (.fault r) ∧ t.flt = some r ∧
      t.pend = s.pend ∧ t.wram = s.wram ∧ t.ime = s.ime ∧ t.cv = s.cv ∧ t.cfg = s.cfg ∧
      step t = .next t ∧ (resetOp t).flt = none ∧ (t.cv.isLoaded = true → (beginOp t).ready)

/-! ## Memory -/

/-- The address map (R50, R55; WRAM_SIZE is a parameter, decision D5): the four regions by address, for every
legal size of Working Memory. -/
def Obligations.AddressMap : Prop :=
  ∀ (cfg : Config) (w : Word), cfg.wramSizeOk = true →
    (region cfg w = .rom ↔ w.toNat < 0x8000) ∧
    (region cfg w = .wram ↔ 0xC000 ≤ w.toNat ∧ w.toNat < 0xC000 + cfg.wramSize) ∧
    (region cfg w = .io ↔ 0xFF00 ≤ w.toNat) ∧
    (region cfg w = .unmapped ↔
      (0x8000 ≤ w.toNat ∧ w.toNat < 0xC000) ∨ (0xC000 + cfg.wramSize ≤ w.toNat ∧ w.toNat < 0xFF00))

/-- `MemRead(a, 1)` (R56): by region, the cartridge's byte, the byte of Working Memory, or the fault
`UnmappedAddress(a)`; without a cartridge a ROM-region read raises `CartridgeNotLoaded`. -/
def Obligations.MemReadByRegion : Prop :=
  ∀ (s : State) (w : Word),
    (region s.cfg w = .rom → memRead s w = cartRead8 s.cv w.toNat) ∧
    (region s.cfg w = .rom → s.cv.isLoaded = false → memRead s w = .error .cartridgeNotLoaded) ∧
    (region s.cfg w = .wram → memRead s w = .ok (s.wram.read (w.toNat - 0xC000))) ∧
    (region s.cfg w = .io → s.cfg.ioBacking = .none → memRead s w = .error (.unmappedAddress w)) ∧
    (region s.cfg w = .unmapped → memRead s w = .error (.unmappedAddress w))

/-- `MemWrite(a, 1, v)` (R58): in Working Memory the byte is stored, is read back, and every other address reads
as before; anywhere else (with IO_BACKING = none) nothing changes. -/
def Obligations.MemWriteStoresOnlyInWorkingMemory : Prop :=
  ∀ (s : State) (w : Word) (v : Byte),
    (region s.cfg w = .wram → memRead (memWrite w v s) w = .ok v ∧
      (∀ x, x ≠ w → memRead (memWrite w v s) x = memRead s x) ∧
      memWrite w v s = { s with wram := (memWrite w v s).wram }) ∧
    (region s.cfg w = .rom ∨ region s.cfg w = .unmapped → memWrite w v s = s) ∧
    (region s.cfg w = .io → s.cfg.ioBacking = .none → memWrite w v s = s)

/-- `MemRead(a, 2)` (R57, decision D21): low byte at `a`, high byte at `a + 1`, each by its own region; the first
read that raises ends it. -/
def Obligations.WideReadIsTwoByteReads : Prop :=
  ∀ (s : State) (w : Word),
    (∀ low high, memRead s w = .ok low → memRead s (w + 1) = .ok high →
      ∃ v, memRead16 s w = .ok v ∧ v.toNat = high.toNat * 256 + low.toNat) ∧
    (∀ r, memRead s w = .error r → memRead16 s w = .error r) ∧
    (∀ low r, memRead s w = .ok low → memRead s (w + 1) = .error r → memRead16 s w = .error r)

/-- `Push16` then `Pop16` (R64, R65; pre-decrement: decision D7): SP moves by 2 whatever the region; with both
bytes in Working Memory the high byte stands at SP - 1, the low byte at SP - 2, and a pop gives the value and
SP back. -/
def Obligations.PushThenPop : Prop :=
  ∀ (s : State) (v : Word), (push16 v s).sp = s.sp - 2 ∧
    (region s.cfg (s.sp - 1) = .wram → region s.cfg (s.sp - 2) = .wram →
      memRead (push16 v s) (s.sp - 1) = .ok (hi v) ∧ memRead (push16 v s) (s.sp - 2) = .ok (lo v) ∧
      ∃ t, pop16 (push16 v s) = .ok (v, t) ∧ t.sp = s.sp ∧ t.wram = (push16 v s).wram)

/-! ## Control transfer -/

/-- `JP nn` (R141): PC becomes the immediate; nothing else changes but PEND. -/
def Obligations.JumpAbsolute : Prop :=
  ∀ (i : Instr) (nn : Word) (s : State), i.form = .jp nn →
    exec i s = .next { s with pc := nn, pend := s.cfg.cost.jp - 1 }

/-- `JR cc,e` (R142; base of the displacement: decision D8; conditions: D9): taken, PC moves by the two's complement
displacement modulo 65536; not taken, PC stays past the operand. -/
def Obligations.JumpRelative : Prop :=
  ∀ (i : Instr) (c : Cond) (e : Byte) (s : State), i.form = .jr c e →
    (cond s c = true → ∃ target : Word, (target.toNat : Int) = ((s.pc.toNat : Int) + e.toInt) % 65536 ∧
      exec i s = .next { s with pc := target, pend := s.cfg.cost.jrTaken - 1 }) ∧
    (cond s c = false → exec i s = .next { s with pend := s.cfg.cost.jrNotTaken - 1 })

/-- The four conditions (R87, decision D9), and, by R35, NC always and C never in states that a run can reach. -/
def Obligations.BranchConditions : Prop :=
  ∀ s : State, (cond s .NZ = true ↔ s.f.getLsbD 7 = false) ∧ (cond s .Z = true ↔ s.f.getLsbD 7 = true) ∧
    (cond s .NC = true ↔ s.f.getLsbD 4 = false) ∧ (cond s .C = true ↔ s.f.getLsbD 4 = true) ∧
    (FlagsOk s → cond s .NC = true ∧ cond s .C = false)

/-- `CALL nn` (R143; addresses of the two bytes: decision D7): PC becomes the target, SP moves by 2, the return
address is stored high byte at SP - 1 and low byte at SP - 2 where those are Working Memory and dropped
elsewhere; registers, flags and IME are unchanged. It never faults. -/
def Obligations.CallPushesReturnAddress : Prop :=
  ∀ (i : Instr) (nn : Word) (s : State), i.form = .call nn →
    ∃ t, exec i s = .next t ∧ t.pc = nn ∧ t.sp = s.sp - 2 ∧ t.pend = s.cfg.cost.call - 1 ∧
      (region s.cfg (s.sp - 1) = .wram → memRead t (s.sp - 1) = .ok (hi s.pc)) ∧
      (region s.cfg (s.sp - 2) = .wram → memRead t (s.sp - 2) = .ok (lo s.pc)) ∧
      (s.cfg.ioBacking = .none → region s.cfg (s.sp - 1) ≠ .wram → region s.cfg (s.sp - 2) ≠ .wram →
        t.wram = s.wram) ∧
      RegsKept [] s t ∧ FlagsKept [] s t ∧ t.ime = s.ime ∧ SystemKept s t

/-- `RET` (R144, decision D19): PC becomes the word at SP, low byte first, SP moves by 2; a stack byte that cannot
be read faults. -/
def Obligations.ReturnPopsAddress : Prop :=
  ∀ (i : Instr) (s : State), i.form = .ret →
    (∀ low high, memRead s s.sp = .ok low → memRead s (s.sp + 1) = .ok high →
      exec i s = .next { s with pc := cat high low, sp := s.sp + 2, pend := s.cfg.cost.ret - 1 }) ∧
    (∀ r, memRead s s.sp = .error r → exec i s = .fault r) ∧
    (∀ low r, memRead s s.sp = .ok low → memRead s (s.sp + 1) = .error r → exec i s = .fault r)

/-- `RET cc` (R145; conditions: decision D9): taken as RET; not taken, PC, SP and memory are untouched. -/
def Obligations.ConditionalReturn : Prop :=
  ∀ (i : Instr) (c : Cond) (s : State), i.form = .retCc c →
    (cond s c = true → ∀ low high, memRead s s.sp = .ok low → memRead s (s.sp + 1) = .ok high →
      exec i s = .next { s with pc := cat high low, sp := s.sp + 2, pend := s.cfg.cost.retTaken - 1 }) ∧
    (cond s c = true → ∀ r, memRead s s.sp = .error r → exec i s = .fault r) ∧
    (cond s c = true → ∀ low r, memRead s s.sp = .ok low → memRead s (s.sp + 1) = .error r →
      exec i s = .fault r) ∧
    (cond s c = false → exec i s = .next { s with pend := s.cfg.cost.retNotTaken - 1 })

/-- CALL then RET (R65; the document's test V3): with both stack bytes in Working Memory, the return comes back to
the address after the CALL with SP as before. -/
def Obligations.CallThenReturn : Prop :=
  ∀ (nn : Word) (s t : State), region s.cfg (s.sp - 1) = .wram → region s.cfg (s.sp - 2) = .wram →
    exec (.call_nn nn) s = .next t →
    ∃ u, exec .ret t = .next u ∧ u.pc = s.pc ∧ u.sp = s.sp ∧ RegsKept [] s u ∧ FlagsKept [] s u ∧
      u.ime = s.ime ∧ SystemKept s u

/-! ## Loads and stores -/

/-- `LD r,n` (R150): the register becomes the immediate, Z says whether it is zero; no other register or flag
changes. -/
def Obligations.LoadRegisterImmediate : Prop :=
  ∀ (i : Instr) (r : Reg8) (n : Byte) (s : State), i.form = .ldRn r n →
    ∃ t, exec i s = .next t ∧ t.reg r = n ∧ (t.flag .Z = true ↔ n.toNat = 0) ∧
      RegsKept [r] s t ∧ FlagsKept [.Z] s t ∧ t.sp = s.sp ∧ t.pc = s.pc ∧ t.ime = s.ime ∧
      t.pend = s.cfg.cost.ldRN - 1 ∧ SystemKept s t ∧ MemoryKept s t

/-- `LD rr,nn` (R151; which half is high: decision D6): both halves written, no flag. -/
def Obligations.LoadPairImmediate : Prop :=
  ∀ (i : Instr) (p : Pair) (nn : Word) (s : State), i.form = .ldRRnn p nn →
    ∃ t, exec i s = .next t ∧ (t.reg (Pair.high p)).toNat = nn.toNat / 256 ∧
      (t.reg (Pair.low p)).toNat = nn.toNat % 256 ∧ t.pair p = nn ∧
      RegsKept [Pair.high p, Pair.low p] s t ∧ t.f = s.f ∧ t.sp = s.sp ∧ t.pc = s.pc ∧ t.ime = s.ime ∧
      t.pend = s.cfg.cost.ldRRNN - 1 ∧ SystemKept s t ∧ MemoryKept s t

/-- `LD r,r'` (R152): the destination becomes the source's value before; no flag; with `r = r'` no data
changes. -/
def Obligations.LoadRegisterRegister : Prop :=
  ∀ (i : Instr) (r r' : Reg8) (s : State), i.form = .ldRR r r' →
    ∃ t, exec i s = .next t ∧ t.reg r = s.reg r' ∧ RegsKept [r] s t ∧ t.f = s.f ∧ t.sp = s.sp ∧
      t.pc = s.pc ∧ t.ime = s.ime ∧ t.pend = s.cfg.cost.ldRR - 1 ∧ SystemKept s t ∧ MemoryKept s t

/-- `LD (BC),A`, `LD (DE),A` (R153) and `LD (HL),A` (R154): A is stored at the pair's address where that is
Working Memory and dropped elsewhere; no register or flag changes; it never faults. -/
def Obligations.StoreAccumulatorThroughPair : Prop :=
  ∀ (i : Instr) (p : Pair) (s : State), i.form = .ldAtRRA p →
    ∃ t, exec i s = .next t ∧
      (region s.cfg (s.pair p) = .wram → memRead t (s.pair p) = .ok s.a) ∧
      (s.cfg.ioBacking = .none → region s.cfg (s.pair p) ≠ .wram → t.wram = s.wram ∧ t.ioDev = s.ioDev) ∧
      MemoryKeptBut (s.pair p) s t ∧ RegsKept [] s t ∧ t.f = s.f ∧ t.sp = s.sp ∧ t.pc = s.pc ∧
      t.ime = s.ime ∧ t.pend = s.cfg.cost.ldAtRRA - 1 ∧ SystemKept s t

/-- `LD (HL-),A` (R155; Z on 16 bits: decision D10): A is stored at HL, then HL goes down by one modulo 65536, Z says
whether the new HL is zero, N is set. -/
def Obligations.StoreAccumulatorThenDecrement : Prop :=
  ∀ (i : Instr) (s : State), i.form = .ldAtHLdecA →
    ∃ t, exec i s = .next t ∧
      (region s.cfg (s.pair .HL) = .wram → memRead t (s.pair .HL) = .ok s.a) ∧
      (s.cfg.ioBacking = .none → region s.cfg (s.pair .HL) ≠ .wram → t.wram = s.wram ∧ t.ioDev = s.ioDev) ∧
      MemoryKeptBut (s.pair .HL) s t ∧
      (t.pair .HL).toNat = ((s.pair .HL).toNat + 65535) % 65536 ∧
      (t.flag .Z = true ↔ (t.pair .HL).toNat = 0) ∧ t.flag .N = true ∧ FlagsKept [.Z, .N] s t ∧
      RegsKept [.H, .L] s t ∧ t.sp = s.sp ∧ t.pc = s.pc ∧ t.ime = s.ime ∧
      t.pend = s.cfg.cost.ldAtHLDecA - 1 ∧ SystemKept s t

/-- `LDH (n),A` (R156): completes for every offset; with IO_BACKING = none the store is dropped, so that only PEND
changes; with a device only its state changes beside (log 6). -/
def Obligations.HighPageStore : Prop :=
  ∀ (i : Instr) (n : Byte) (s : State), i.form = .ldhNA n → s.cfg.wramSizeOk = true →
    (highPage n).toNat = 0xFF00 + n.toNat ∧
    (s.cfg.ioBacking = .none → exec i s = .next { s with pend := s.cfg.cost.ldhNA - 1 }) ∧
    (∃ d, exec i s = .next { s with pend := s.cfg.cost.ldhNA - 1, ioDev := d })

/-- `LDH A,(n)` (R157): with IO_BACKING = none it always faults with the address 0xFF00 + n. With a device whose
read answers, A becomes the byte read and nothing else changes but PEND (log 6). -/
def Obligations.HighPageFetch : Prop :=
  ∀ (i : Instr) (n : Byte) (s : State), i.form = .ldhAN n → s.cfg.wramSizeOk = true →
    (s.cfg.ioBacking = .none → exec i s = .fault (.unmappedAddress (0xFF00 + n.setWidth 16))) ∧
    (∀ readable, s.cfg.ioBacking = .device readable → n ∈ readable →
      ∃ v, memRead s (0xFF00 + n.setWidth 16) = .ok v ∧
        exec i s = .next { s with a := v, pend := s.cfg.cost.ldhAN - 1 }) ∧
    (∀ readable, s.cfg.ioBacking = .device readable → n ∉ readable →
      exec i s = .fault (.unmappedAddress (0xFF00 + n.setWidth 16)))

/-! ## Arithmetic and logic -/

/-- `DEC r` (R170): one less modulo 256, Z says whether the result is zero, N is set, H and C unchanged. -/
def Obligations.DecrementRegister : Prop :=
  ∀ (i : Instr) (r : Reg8) (s : State), i.form = .decR r →
    ∃ t, exec i s = .next t ∧ (t.reg r).toNat = ((s.reg r).toNat + 255) % 256 ∧
      (t.flag .Z = true ↔ (t.reg r).toNat = 0) ∧ t.flag .N = true ∧ FlagsKept [.Z, .N] s t ∧
      RegsKept [r] s t ∧ t.sp = s.sp ∧ t.pc = s.pc ∧ t.ime = s.ime ∧ t.pend = s.cfg.cost.decR - 1 ∧
      SystemKept s t ∧ MemoryKept s t

/-- `DEC rr` (R171): one less modulo 65536, halves written back, no flag. -/
def Obligations.DecrementPair : Prop :=
  ∀ (i : Instr) (p : Pair) (s : State), i.form = .decRR p →
    ∃ t, exec i s = .next t ∧ (t.pair p).toNat = ((s.pair p).toNat + 65535) % 65536 ∧
      RegsKept [Pair.high p, Pair.low p] s t ∧ t.f = s.f ∧ t.sp = s.sp ∧ t.pc = s.pc ∧ t.ime = s.ime ∧
      t.pend = s.cfg.cost.decRR - 1 ∧ SystemKept s t ∧ MemoryKept s t

/-- `XOR r` (R172) and `XOR n` (R173): every bit of A is the exclusive or of A's and the operand's; Z says whether
the result is zero; N, H and C unchanged. `v` is the operand. -/
def Obligations.ExclusiveOr : Prop :=
  ∀ (i : Instr) (v : Byte) (s : State),
    ((∃ r, i.form = .xorR r ∧ v = s.reg r) ∨ i.form = .xorN v) →
    ∃ t, exec i s = .next t ∧ (∀ k < 8, t.a.getLsbD k = (s.a.getLsbD k != v.getLsbD k)) ∧
      (t.flag .Z = true ↔ t.a.toNat = 0) ∧ FlagsKept [.Z] s t ∧ RegsKept [.A] s t ∧ t.sp = s.sp ∧
      t.pc = s.pc ∧ t.ime = s.ime ∧ t.pend = formCost s.cfg.cost false i.form - 1 ∧ SystemKept s t ∧
      MemoryKept s t

/-- `AND r` (R174) and `AND n` (R175): every bit of A is the and of A's and the operand's; Z says whether the
result is zero, N is cleared, H set, C cleared. `v` is the operand. -/
def Obligations.BitwiseAnd : Prop :=
  ∀ (i : Instr) (v : Byte) (s : State),
    ((∃ r, i.form = .andR r ∧ v = s.reg r) ∨ i.form = .andN v) →
    ∃ t, exec i s = .next t ∧ (∀ k < 8, t.a.getLsbD k = (s.a.getLsbD k && v.getLsbD k)) ∧
      (t.flag .Z = true ↔ t.a.toNat = 0) ∧ t.flag .N = false ∧ t.flag .H = true ∧ t.flag .C = false ∧
      t.f &&& 0x0F = s.f &&& 0x0F ∧ RegsKept [.A] s t ∧ t.sp = s.sp ∧ t.pc = s.pc ∧ t.ime = s.ime ∧
      t.pend = formCost s.cfg.cost false i.form - 1 ∧ SystemKept s t ∧ MemoryKept s t

/-- `CP r` (R176) and `CP n` (R177): Z says whether A equals the operand; A is not changed, nor N, H or C. `v` is
the operand. -/
def Obligations.Compare : Prop :=
  ∀ (i : Instr) (v : Byte) (s : State),
    ((∃ r, i.form = .cpR r ∧ v = s.reg r) ∨ i.form = .cpN v) →
    ∃ t, exec i s = .next t ∧ (t.flag .Z = true ↔ s.a.toNat = v.toNat) ∧ FlagsKept [.Z] s t ∧
      RegsKept [] s t ∧ t.sp = s.sp ∧ t.pc = s.pc ∧ t.ime = s.ime ∧
      t.pend = formCost s.cfg.cost false i.form - 1 ∧ SystemKept s t ∧ MemoryKept s t

/-! ## System -/

/-- `NOP` (R190), `DI` (R191) and `EI` (R192; at once: decision D28): NOP changes PEND only, DI clears IME, EI
sets it, and nothing else changes. -/
def Obligations.NopAndInterruptMask : Prop :=
  ∀ s : State, exec .nop s = .next { s with pend := s.cfg.cost.nop - 1 } ∧
    exec .di s = .next { s with ime := false, pend := s.cfg.cost.di - 1 } ∧
    exec .ei s = .next { s with ime := true, pend := s.cfg.cost.ei - 1 }

/-! ## Whole-machine rules -/

/-- `SetFlag(f, b)` (R33): changes only the bit of `f`, and nothing but F. -/
def Obligations.SetFlagChangesOneBit : Prop :=
  ∀ (x : Flag) (b : Bool) (s : State),
    (setFlag x b s).f = (if b then s.f ||| x.mask else s.f &&& (0xFF ^^^ x.mask)) ∧
    (∀ k < 8, x.mask.getLsbD k = false → (setFlag x b s).f.getLsbD k = s.f.getLsbD k) ∧
    (setFlag x b s).flag x = b ∧ setFlag x b s = { s with f := (setFlag x b s).f }

/-- Flags written per instruction (R34): each flag of each instruction as the table says, every other bit of F as
it was. -/
def Obligations.FlagTable : Prop :=
  ∀ (i : Instr) (s t : State), exec i s = .next t →
    (∀ x, t.flag x = (flagWritten s i.form x).getD (s.flag x)) ∧ t.f &&& 0x0F = s.f &&& 0x0F

/-- Which registers each instruction writes (R24, R36, R37): no other 8-bit register changes; SP is written by
CALL and a taken RET only; IME by DI and EI only; FLT, the cartridge and the parameters by none. -/
def Obligations.RegistersWritten : Prop :=
  ∀ (i : Instr) (s t : State), exec i s = .next t →
    RegsKept (regsWritten i.form) s t ∧
    ((∀ nn, i.form ≠ .call nn) → i.form ≠ .ret → (∀ c, i.form = .retCc c → cond s c = false) → t.sp = s.sp) ∧
    (i.form ≠ .di → i.form ≠ .ei → t.ime = s.ime) ∧ SystemKept s t

/-- The frame of memory: a byte changes only at an address the instruction stores to, computed as its meaning
computes it (R158, R64, R66); an instruction that stores nothing leaves every byte, and the device, alone. -/
def Obligations.MemoryFrame : Prop :=
  ∀ (i : Instr) (s t : State), exec i s = .next t →
    (∀ x, x ∉ storedAddresses s i.form → (s.cfg.ioBacking = .none ∨ region s.cfg x ≠ .io) →
      memRead t x = memRead s x) ∧
    (storedAddresses s i.form = [] → MemoryKept s t ∧ t.wram = s.wram ∧ t.ioDev = s.ioDev)

/-! ## Cartridge validator -/

/-- `validate` (R104): the first failed check, in the order signature, layout, checksum, determines the error; when
all pass the cartridge holds the image and the values extracted from it. -/
def Obligations.ValidationOrder : Prop :=
  ∀ img : Image,
    (¬ (img.byte 0x100 = 0xC3 ∧ img.byte 0x101 = 0) → validate img = .error .invalidHeaderSignature) ∧
    (img.byte 0x100 = 0xC3 → img.byte 0x101 = 0 → ¬ (img.byte 0x147 = 0 ∧ img.byte 0x148 = 0) →
      validate img = .error .unsupportedCartridgeLayout) ∧
    (img.byte 0x100 = 0xC3 → img.byte 0x101 = 0 → img.byte 0x147 = 0 → img.byte 0x148 = 0 →
      checksum img ≠ cat (img.byte 0x14E) (img.byte 0x14F) → validate img = .error .checksumMismatch) ∧
    (img.byte 0x100 = 0xC3 → img.byte 0x101 = 0 → img.byte 0x147 = 0 → img.byte 0x148 = 0 →
      checksum img = cat (img.byte 0x14E) (img.byte 0x14F) →
      validate img = .ok ⟨img.cells, 0, 0, checksum img, imageTitle img,
        cat (img.byte 0x103) (img.byte 0x102)⟩)

/-- `Checksum(img)` of a buffer (R107): the sum of all bytes but the two at 0x14E and 0x14F, modulo 65536. -/
def Obligations.ChecksumIsMaskedSum : Prop :=
  ∀ bytes : List Byte,
    (checksum (Image.ofBytes bytes)).toNat =
      (((List.range bytes.length).map
        (fun i => if i = 0x14E ∨ i = 0x14F then 0 else (bytes.getD i 0).toNat)).sum) % 65536

/-- One changed byte of a valid image makes validation fail (R114): with ChecksumMismatch anywhere outside the four
header bytes checked first, the checksum bytes included, and with the header's own error at those four. -/
def Obligations.OneChangedByteFailsValidation : Prop :=
  ∀ (img img' : Image) (c : Cartridge) (k : Nat), validate img = .ok c → k < img.len →
    Image.SameBut k img img' → img'.byte k ≠ img.byte k →
    validate img' = .error (if k = 0x100 ∨ k = 0x101 then .invalidHeaderSignature
      else if k = 0x147 ∨ k = 0x148 then .unsupportedCartridgeLayout else .checksumMismatch)

/-- The read port (R110, R111, R115): addresses wrap modulo 65536, a word is two bytes little-endian whose second
address wraps too, and an unloaded validator raises `CartridgeNotLoaded`. -/
def Obligations.ReadPortWraps : Prop :=
  ∀ (v : Validator) (addr : Nat),
    cartRead8 v (addr + 65536) = cartRead8 v addr ∧
    (v.isLoaded = false → cartRead8 v addr = .error .cartridgeNotLoaded ∧
      cartRead16 v addr = .error .cartridgeNotLoaded) ∧
    (∀ c, v = .loaded c → addr % 65536 < 0x8000 → cartRead8 v addr = .ok (c.rom.read (addr % 65536))) ∧
    (∀ low high, cartRead8 v addr = .ok low → cartRead8 v ((addr + 1) % 65536) = .ok high →
      cartRead16 v addr = .ok (cat high low))

/-- `title()` (R112; bounds: decision D15): the bytes from 0x134 on, up to the first zero byte or through
0x143. -/
def Obligations.TitleRunsToFirstZero : Prop :=
  ∀ img : Image, (imageTitle img).length ≤ 16 ∧
    (∀ j, j < (imageTitle img).length → (imageTitle img)[j]? = some (img.byte (0x134 + j)) ∧
      img.byte (0x134 + j) ≠ 0) ∧
    ((imageTitle img).length < 16 → img.byte (0x134 + (imageTitle img).length) = 0)
end

