-- ==== Sys2Proof/Laws/Bits.lean ====
section
/-! SUPPORT. Halves, concatenation and extension as numbers (00_scope.md R6, R7). -/

namespace Sys2Proof.Machine

theorem toNat_cat (h l : Byte) : (cat h l).toNat = h.toNat * 256 + l.toNat := by
  simp only [cat, BitVec.toNat_append]
  rw [← Nat.shiftLeft_add_eq_or_of_lt l.isLt]
  simp [Nat.shiftLeft_eq]

theorem toNat_hi (v : Word) : (hi v).toNat = v.toNat / 256 := by
  simp only [hi, BitVec.extractLsb'_toNat, Nat.shiftRight_eq_div_pow]
  omega

theorem toNat_lo (v : Word) : (lo v).toNat = v.toNat % 256 := by
  simp [lo, BitVec.extractLsb'_toNat]

@[simp] theorem cat_hi_lo (v : Word) : cat (hi v) (lo v) = v := by
  apply BitVec.eq_of_toNat_eq
  rw [toNat_cat, toNat_hi, toNat_lo]
  omega

@[simp] theorem hi_cat (h l : Byte) : hi (cat h l) = h := by
  apply BitVec.eq_of_toNat_eq
  rw [toNat_hi, toNat_cat]
  omega

@[simp] theorem lo_cat (h l : Byte) : lo (cat h l) = l := by
  apply BitVec.eq_of_toNat_eq
  rw [toNat_lo, toNat_cat]
  omega

/-- Adding a sign-extended byte adds its two's complement value modulo 65536 (R7, R86). -/
theorem toNat_add_sext (v : Word) (e : Byte) :
    ((v + sext e).toNat : Int) = ((v.toNat : Int) + e.toInt) % 65536 := by
  have hi : e.toInt = if e.toNat < 128 then (e.toNat : Int) else (e.toNat : Int) - 256 := by
    rw [BitVec.toInt_eq_toNat_cond]
    split <;> split <;> omega
  have hs : ∀ e : Byte, (sext e).toNat = if e.toNat < 128 then e.toNat else e.toNat + 0xFF00 := by decide
  rw [BitVec.toNat_add, hs, hi]
  have := e.isLt
  split <;> omega

/-- A byte is zero exactly when its value is. -/
theorem byte_eq_zero_iff (v : Byte) : v = 0 ↔ v.toNat = 0 :=
  ⟨by rintro rfl; rfl, fun h => BitVec.eq_of_toNat_eq h⟩

/-- A word is zero exactly when its value is. -/
theorem word_eq_zero_iff (v : Word) : v = 0 ↔ v.toNat = 0 :=
  ⟨by rintro rfl; rfl, fun h => BitVec.eq_of_toNat_eq h⟩

/-- An exclusive or is zero exactly on equal bytes. -/
theorem xor_eq_zero_iff (a v : Byte) : a ^^^ v = 0 ↔ a = v := by
  refine ⟨fun h => BitVec.eq_of_getLsbD_eq fun i _ => ?_, by rintro rfl; simp⟩
  simpa using congrArg (fun x => x.getLsbD i) h

/-- The halves of a concatenation determine it. -/
theorem cat_inj {a b c d : Byte} (h : cat a b = cat c d) : a = c ∧ b = d := by
  simpa using And.intro (congrArg Machine.hi h) (congrArg lo h)

/-- Zero extension loses nothing (R7). -/
theorem zext_inj {a b : Byte} (h : zext a = zext b) : a = b := by
  have := congrArg BitVec.toNat h
  simp only [zext, BitVec.toNat_setWidth] at this
  apply BitVec.eq_of_toNat_eq
  omega

end Sys2Proof.Machine
end

