-- ==== Sys2Proof/Laws/State.lean ====
section
/-! SUPPORT. What each named update of State leaves unchanged, field by field, and what reading back gives. -/

namespace Sys2Proof.Machine

variable (s : State)

@[simp] theorem setPc_a (v : Word) : (setPc v s).a = s.a := rfl
@[simp] theorem setPc_f (v : Word) : (setPc v s).f = s.f := rfl
@[simp] theorem setPc_b (v : Word) : (setPc v s).b = s.b := rfl
@[simp] theorem setPc_c (v : Word) : (setPc v s).c = s.c := rfl
@[simp] theorem setPc_d (v : Word) : (setPc v s).d = s.d := rfl
@[simp] theorem setPc_e (v : Word) : (setPc v s).e = s.e := rfl
@[simp] theorem setPc_h (v : Word) : (setPc v s).h = s.h := rfl
@[simp] theorem setPc_l (v : Word) : (setPc v s).l = s.l := rfl
@[simp] theorem setPc_sp (v : Word) : (setPc v s).sp = s.sp := rfl
@[simp] theorem setPc_pc (v : Word) : (setPc v s).pc = v := rfl
@[simp] theorem setPc_ime (v : Word) : (setPc v s).ime = s.ime := rfl
@[simp] theorem setPc_pend (v : Word) : (setPc v s).pend = s.pend := rfl
@[simp] theorem setPc_flt (v : Word) : (setPc v s).flt = s.flt := rfl
@[simp] theorem setPc_wram (v : Word) : (setPc v s).wram = s.wram := rfl
@[simp] theorem setPc_cv (v : Word) : (setPc v s).cv = s.cv := rfl
@[simp] theorem setPc_cfg (v : Word) : (setPc v s).cfg = s.cfg := rfl
@[simp] theorem setPc_begun (v : Word) : (setPc v s).begun = s.begun := rfl
@[simp] theorem setPc_ioDev (v : Word) : (setPc v s).ioDev = s.ioDev := rfl
@[simp] theorem reg_setPc (v : Word) (r : Reg8) : (setPc v s).reg r = s.reg r := by cases r <;> rfl
@[simp] theorem pair_setPc (v : Word) (p : Pair) : (setPc v s).pair p = s.pair p := by simp [State.pair]
@[simp] theorem flag_setPc (v : Word) (x : Flag) : (setPc v s).flag x = s.flag x := rfl

@[simp] theorem setSp_a (v : Word) : (setSp v s).a = s.a := rfl
@[simp] theorem setSp_f (v : Word) : (setSp v s).f = s.f := rfl
@[simp] theorem setSp_b (v : Word) : (setSp v s).b = s.b := rfl
@[simp] theorem setSp_c (v : Word) : (setSp v s).c = s.c := rfl
@[simp] theorem setSp_d (v : Word) : (setSp v s).d = s.d := rfl
@[simp] theorem setSp_e (v : Word) : (setSp v s).e = s.e := rfl
@[simp] theorem setSp_h (v : Word) : (setSp v s).h = s.h := rfl
@[simp] theorem setSp_l (v : Word) : (setSp v s).l = s.l := rfl
@[simp] theorem setSp_sp (v : Word) : (setSp v s).sp = v := rfl
@[simp] theorem setSp_pc (v : Word) : (setSp v s).pc = s.pc := rfl
@[simp] theorem setSp_ime (v : Word) : (setSp v s).ime = s.ime := rfl
@[simp] theorem setSp_pend (v : Word) : (setSp v s).pend = s.pend := rfl
@[simp] theorem setSp_flt (v : Word) : (setSp v s).flt = s.flt := rfl
@[simp] theorem setSp_wram (v : Word) : (setSp v s).wram = s.wram := rfl
@[simp] theorem setSp_cv (v : Word) : (setSp v s).cv = s.cv := rfl
@[simp] theorem setSp_cfg (v : Word) : (setSp v s).cfg = s.cfg := rfl
@[simp] theorem setSp_begun (v : Word) : (setSp v s).begun = s.begun := rfl
@[simp] theorem setSp_ioDev (v : Word) : (setSp v s).ioDev = s.ioDev := rfl
@[simp] theorem reg_setSp (v : Word) (r : Reg8) : (setSp v s).reg r = s.reg r := by cases r <;> rfl
@[simp] theorem pair_setSp (v : Word) (p : Pair) : (setSp v s).pair p = s.pair p := by simp [State.pair]
@[simp] theorem flag_setSp (v : Word) (x : Flag) : (setSp v s).flag x = s.flag x := rfl

@[simp] theorem setPend_a (v : Nat) : (setPend v s).a = s.a := rfl
@[simp] theorem setPend_f (v : Nat) : (setPend v s).f = s.f := rfl
@[simp] theorem setPend_b (v : Nat) : (setPend v s).b = s.b := rfl
@[simp] theorem setPend_c (v : Nat) : (setPend v s).c = s.c := rfl
@[simp] theorem setPend_d (v : Nat) : (setPend v s).d = s.d := rfl
@[simp] theorem setPend_e (v : Nat) : (setPend v s).e = s.e := rfl
@[simp] theorem setPend_h (v : Nat) : (setPend v s).h = s.h := rfl
@[simp] theorem setPend_l (v : Nat) : (setPend v s).l = s.l := rfl
@[simp] theorem setPend_sp (v : Nat) : (setPend v s).sp = s.sp := rfl
@[simp] theorem setPend_pc (v : Nat) : (setPend v s).pc = s.pc := rfl
@[simp] theorem setPend_ime (v : Nat) : (setPend v s).ime = s.ime := rfl
@[simp] theorem setPend_pend (v : Nat) : (setPend v s).pend = v := rfl
@[simp] theorem setPend_flt (v : Nat) : (setPend v s).flt = s.flt := rfl
@[simp] theorem setPend_wram (v : Nat) : (setPend v s).wram = s.wram := rfl
@[simp] theorem setPend_cv (v : Nat) : (setPend v s).cv = s.cv := rfl
@[simp] theorem setPend_cfg (v : Nat) : (setPend v s).cfg = s.cfg := rfl
@[simp] theorem setPend_begun (v : Nat) : (setPend v s).begun = s.begun := rfl
@[simp] theorem setPend_ioDev (v : Nat) : (setPend v s).ioDev = s.ioDev := rfl
@[simp] theorem reg_setPend (v : Nat) (r : Reg8) : (setPend v s).reg r = s.reg r := by cases r <;> rfl
@[simp] theorem pair_setPend (v : Nat) (p : Pair) : (setPend v s).pair p = s.pair p := by simp [State.pair]
@[simp] theorem flag_setPend (v : Nat) (x : Flag) : (setPend v s).flag x = s.flag x := rfl

@[simp] theorem setReg_f (r : Reg8) (v : Byte) : (setReg r v s).f = s.f := by cases r <;> rfl
@[simp] theorem setReg_sp (r : Reg8) (v : Byte) : (setReg r v s).sp = s.sp := by cases r <;> rfl
@[simp] theorem setReg_pc (r : Reg8) (v : Byte) : (setReg r v s).pc = s.pc := by cases r <;> rfl
@[simp] theorem setReg_ime (r : Reg8) (v : Byte) : (setReg r v s).ime = s.ime := by cases r <;> rfl
@[simp] theorem setReg_pend (r : Reg8) (v : Byte) : (setReg r v s).pend = s.pend := by cases r <;> rfl
@[simp] theorem setReg_flt (r : Reg8) (v : Byte) : (setReg r v s).flt = s.flt := by cases r <;> rfl
@[simp] theorem setReg_wram (r : Reg8) (v : Byte) : (setReg r v s).wram = s.wram := by cases r <;> rfl
@[simp] theorem setReg_cv (r : Reg8) (v : Byte) : (setReg r v s).cv = s.cv := by cases r <;> rfl
@[simp] theorem setReg_cfg (r : Reg8) (v : Byte) : (setReg r v s).cfg = s.cfg := by cases r <;> rfl
@[simp] theorem setReg_begun (r : Reg8) (v : Byte) : (setReg r v s).begun = s.begun := by cases r <;> rfl
@[simp] theorem setReg_ioDev (r : Reg8) (v : Byte) : (setReg r v s).ioDev = s.ioDev := by cases r <;> rfl

@[simp] theorem reg_setReg (r r' : Reg8) (v : Byte) :
    (setReg r v s).reg r' = if r' = r then v else s.reg r' := by
  cases r <;> cases r' <;> rfl

@[simp] theorem setFlag_a (x : Flag) (b : Bool) : (setFlag x b s).a = s.a := rfl
@[simp] theorem setFlag_b (x : Flag) (b : Bool) : (setFlag x b s).b = s.b := rfl
@[simp] theorem setFlag_c (x : Flag) (b : Bool) : (setFlag x b s).c = s.c := rfl
@[simp] theorem setFlag_d (x : Flag) (b : Bool) : (setFlag x b s).d = s.d := rfl
@[simp] theorem setFlag_e (x : Flag) (b : Bool) : (setFlag x b s).e = s.e := rfl
@[simp] theorem setFlag_h (x : Flag) (b : Bool) : (setFlag x b s).h = s.h := rfl
@[simp] theorem setFlag_l (x : Flag) (b : Bool) : (setFlag x b s).l = s.l := rfl
@[simp] theorem setFlag_sp (x : Flag) (b : Bool) : (setFlag x b s).sp = s.sp := rfl
@[simp] theorem setFlag_pc (x : Flag) (b : Bool) : (setFlag x b s).pc = s.pc := rfl
@[simp] theorem setFlag_ime (x : Flag) (b : Bool) : (setFlag x b s).ime = s.ime := rfl
@[simp] theorem setFlag_pend (x : Flag) (b : Bool) : (setFlag x b s).pend = s.pend := rfl
@[simp] theorem setFlag_flt (x : Flag) (b : Bool) : (setFlag x b s).flt = s.flt := rfl
@[simp] theorem setFlag_wram (x : Flag) (b : Bool) : (setFlag x b s).wram = s.wram := rfl
@[simp] theorem setFlag_cv (x : Flag) (b : Bool) : (setFlag x b s).cv = s.cv := rfl
@[simp] theorem setFlag_cfg (x : Flag) (b : Bool) : (setFlag x b s).cfg = s.cfg := rfl
@[simp] theorem setFlag_begun (x : Flag) (b : Bool) : (setFlag x b s).begun = s.begun := rfl
@[simp] theorem setFlag_ioDev (x : Flag) (b : Bool) : (setFlag x b s).ioDev = s.ioDev := rfl

@[simp] theorem reg_setFlag (x : Flag) (b : Bool) (r : Reg8) : (setFlag x b s).reg r = s.reg r := by
  cases r <;> rfl

@[simp] theorem flag_setReg (r : Reg8) (v : Byte) (x : Flag) : (setReg r v s).flag x = s.flag x := by
  simp [State.flag]

/-- `SetFlag` writes its own flag and no other (R33). -/
@[simp] theorem flag_setFlag (x y : Flag) (b : Bool) :
    (setFlag x b s).flag y = if y = x then b else s.flag y := by
  have key : ∀ f : Byte, ∀ x y : Flag, ∀ b : Bool,
      ((if b then f ||| x.mask else f &&& (0xFF ^^^ x.mask)) &&& y.mask != 0)
        = if y = x then b else f &&& y.mask != 0 := by
    intro f x y b
    revert f
    cases x <;> cases y <;> cases b <;> decide
  exact key s.f x y b

/-- `SetFlag` keeps bits 3 to 0 of F (R32, R33). -/
@[simp] theorem setFlag_low (x : Flag) (b : Bool) : (setFlag x b s).f &&& 0x0F = s.f &&& 0x0F := by
  have key : ∀ f : Byte, (if b then f ||| x.mask else f &&& (0xFF ^^^ x.mask)) &&& 0x0F = f &&& 0x0F := by
    cases x <;> cases b <;> decide
  exact key s.f

@[simp] theorem memWrite_a (w : Word) (v : Byte) : (memWrite w v s).a = s.a := by
  unfold memWrite ioWrite; repeat' split
  all_goals rfl
@[simp] theorem memWrite_f (w : Word) (v : Byte) : (memWrite w v s).f = s.f := by
  unfold memWrite ioWrite; repeat' split
  all_goals rfl
@[simp] theorem memWrite_b (w : Word) (v : Byte) : (memWrite w v s).b = s.b := by
  unfold memWrite ioWrite; repeat' split
  all_goals rfl
@[simp] theorem memWrite_c (w : Word) (v : Byte) : (memWrite w v s).c = s.c := by
  unfold memWrite ioWrite; repeat' split
  all_goals rfl
@[simp] theorem memWrite_d (w : Word) (v : Byte) : (memWrite w v s).d = s.d := by
  unfold memWrite ioWrite; repeat' split
  all_goals rfl
@[simp] theorem memWrite_e (w : Word) (v : Byte) : (memWrite w v s).e = s.e := by
  unfold memWrite ioWrite; repeat' split
  all_goals rfl
@[simp] theorem memWrite_h (w : Word) (v : Byte) : (memWrite w v s).h = s.h := by
  unfold memWrite ioWrite; repeat' split
  all_goals rfl
@[simp] theorem memWrite_l (w : Word) (v : Byte) : (memWrite w v s).l = s.l := by
  unfold memWrite ioWrite; repeat' split
  all_goals rfl
@[simp] theorem memWrite_sp (w : Word) (v : Byte) : (memWrite w v s).sp = s.sp := by
  unfold memWrite ioWrite; repeat' split
  all_goals rfl
@[simp] theorem memWrite_pc (w : Word) (v : Byte) : (memWrite w v s).pc = s.pc := by
  unfold memWrite ioWrite; repeat' split
  all_goals rfl
@[simp] theorem memWrite_ime (w : Word) (v : Byte) : (memWrite w v s).ime = s.ime := by
  unfold memWrite ioWrite; repeat' split
  all_goals rfl
@[simp] theorem memWrite_pend (w : Word) (v : Byte) : (memWrite w v s).pend = s.pend := by
  unfold memWrite ioWrite; repeat' split
  all_goals rfl
@[simp] theorem memWrite_flt (w : Word) (v : Byte) : (memWrite w v s).flt = s.flt := by
  unfold memWrite ioWrite; repeat' split
  all_goals rfl
@[simp] theorem memWrite_cv (w : Word) (v : Byte) : (memWrite w v s).cv = s.cv := by
  unfold memWrite ioWrite; repeat' split
  all_goals rfl
@[simp] theorem memWrite_cfg (w : Word) (v : Byte) : (memWrite w v s).cfg = s.cfg := by
  unfold memWrite ioWrite; repeat' split
  all_goals rfl
@[simp] theorem memWrite_begun (w : Word) (v : Byte) : (memWrite w v s).begun = s.begun := by
  unfold memWrite ioWrite; repeat' split
  all_goals rfl

@[simp] theorem reg_memWrite (w : Word) (v : Byte) (r : Reg8) : (memWrite w v s).reg r = s.reg r := by
  cases r <;> simp [State.reg]

@[simp] theorem flag_memWrite (w : Word) (v : Byte) (x : Flag) : (memWrite w v s).flag x = s.flag x := by
  simp [State.flag]

@[simp] theorem pair_memWrite (w : Word) (v : Byte) (p : Pair) : (memWrite w v s).pair p = s.pair p := by
  simp [State.pair]

@[simp] theorem pair_setFlag (x : Flag) (b : Bool) (p : Pair) : (setFlag x b s).pair p = s.pair p := by
  simp [State.pair]

@[simp] theorem setPair_f (p : Pair) (v : Word) : (setPair p v s).f = s.f := by simp [setPair]
@[simp] theorem setPair_sp (p : Pair) (v : Word) : (setPair p v s).sp = s.sp := by simp [setPair]
@[simp] theorem setPair_pc (p : Pair) (v : Word) : (setPair p v s).pc = s.pc := by simp [setPair]
@[simp] theorem setPair_ime (p : Pair) (v : Word) : (setPair p v s).ime = s.ime := by simp [setPair]
@[simp] theorem setPair_pend (p : Pair) (v : Word) : (setPair p v s).pend = s.pend := by simp [setPair]
@[simp] theorem setPair_flt (p : Pair) (v : Word) : (setPair p v s).flt = s.flt := by simp [setPair]
@[simp] theorem setPair_wram (p : Pair) (v : Word) : (setPair p v s).wram = s.wram := by simp [setPair]
@[simp] theorem setPair_cv (p : Pair) (v : Word) : (setPair p v s).cv = s.cv := by simp [setPair]
@[simp] theorem setPair_cfg (p : Pair) (v : Word) : (setPair p v s).cfg = s.cfg := by simp [setPair]
@[simp] theorem setPair_begun (p : Pair) (v : Word) : (setPair p v s).begun = s.begun := by simp [setPair]
@[simp] theorem setPair_ioDev (p : Pair) (v : Word) : (setPair p v s).ioDev = s.ioDev := by simp [setPair]

@[simp] theorem flag_setPair (p : Pair) (v : Word) (x : Flag) : (setPair p v s).flag x = s.flag x := by
  simp [setPair]

/-- Writing a pair writes its two registers and no other (R23). -/
@[simp] theorem reg_setPair (p : Pair) (v : Word) (r : Reg8) :
    (setPair p v s).reg r = if r = Pair.low p then lo v else if r = Pair.high p then hi v else s.reg r := by
  simp [setPair]

theorem pair_high_ne_low (p : Pair) : Pair.high p ≠ Pair.low p := by cases p <;> decide

/-- A pair reads back what was written to it (R23). -/
@[simp] theorem pair_setPair (p : Pair) (v : Word) : (setPair p v s).pair p = v := by
  simp [State.pair, pair_high_ne_low]

theorem push16_sp (v : Word) : (push16 v s).sp = s.sp - 2 := by
  simp only [push16, memWrite_sp, setSp_sp]
  bv_omega

@[simp] theorem push16_a (v : Word) : (push16 v s).a = s.a := by simp [push16]
@[simp] theorem push16_f (v : Word) : (push16 v s).f = s.f := by simp [push16]
@[simp] theorem push16_b (v : Word) : (push16 v s).b = s.b := by simp [push16]
@[simp] theorem push16_c (v : Word) : (push16 v s).c = s.c := by simp [push16]
@[simp] theorem push16_d (v : Word) : (push16 v s).d = s.d := by simp [push16]
@[simp] theorem push16_e (v : Word) : (push16 v s).e = s.e := by simp [push16]
@[simp] theorem push16_h (v : Word) : (push16 v s).h = s.h := by simp [push16]
@[simp] theorem push16_l (v : Word) : (push16 v s).l = s.l := by simp [push16]
@[simp] theorem push16_pc (v : Word) : (push16 v s).pc = s.pc := by simp [push16]
@[simp] theorem push16_ime (v : Word) : (push16 v s).ime = s.ime := by simp [push16]
@[simp] theorem push16_pend (v : Word) : (push16 v s).pend = s.pend := by simp [push16]
@[simp] theorem push16_flt (v : Word) : (push16 v s).flt = s.flt := by simp [push16]
@[simp] theorem push16_cv (v : Word) : (push16 v s).cv = s.cv := by simp [push16]
@[simp] theorem push16_cfg (v : Word) : (push16 v s).cfg = s.cfg := by simp [push16]
@[simp] theorem push16_begun (v : Word) : (push16 v s).begun = s.begun := by simp [push16]

@[simp] theorem reg_push16 (v : Word) (r : Reg8) : (push16 v s).reg r = s.reg r := by
  cases r <;> simp [State.reg]

@[simp] theorem flag_push16 (v : Word) (x : Flag) : (push16 v s).flag x = s.flag x := by
  simp [State.flag]

end Sys2Proof.Machine
end

