-- ==== Sys2Proof/Laws/Memory.lean ====
section
/-! SUPPORT. Storage and the memory access primitives: read after write, the canonical form, the regions. -/

namespace Sys2Proof.Machine

/-! ## Storage -/

theorem Memory.read_erase (m : Memory) (i j : Nat) :
    (m.erase i).read j = if i = j then 0 else m.read j := by
  induction m with
  | nil => simp [Memory.erase, Memory.read]
  | cons x m ih =>
    obtain ⟨k, v⟩ := x
    simp only [Memory.erase] at ih ⊢
    by_cases hk : k = i
    · subst hk
      by_cases hj : k = j
      · simp_all
      · simp_all [Memory.read]
    · by_cases hj : k = j
      · subst hj
        simp_all [Memory.read, Ne.symm hk]
      · simp_all [Memory.read]

theorem Memory.read_insert (m : Memory) (i j : Nat) (v : Byte) (h : ∀ x ∈ m, x.1 ≠ i) :
    (Memory.insert i v m).read j = if i = j then v else m.read j := by
  induction m with
  | nil => rfl
  | cons x m ih =>
    obtain ⟨k, w⟩ := x
    have hk : k ≠ i := h (k, w) (by simp)
    have ih := ih (fun x hx => h x (by simp [hx]))
    simp only [Memory.insert]
    split
    · rfl
    · simp only [Memory.read, ih]
      by_cases hkj : k = j
      · subst hkj
        simp [Ne.symm hk]
      · simp [hkj]

theorem Memory.erase_ne (m : Memory) (i : Nat) : ∀ x ∈ m.erase i, x.1 ≠ i := by
  intro x hx
  simpa using (List.mem_filter.mp hx).2

/-- The one law of storage: a write is read back, and every other index reads as before. -/
theorem Memory.read_write (m : Memory) (i j : Nat) (v : Byte) :
    (m.write i v).read j = if i = j then v else m.read j := by
  simp only [Memory.write]
  split
  · rename_i hv
    rw [Memory.read_erase, hv]
  · rw [Memory.read_insert _ _ _ _ (Memory.erase_ne m i), Memory.read_erase]
    split <;> rfl

theorem Memory.mem_insert (m : Memory) (i : Nat) (v : Byte) (x : Host.Cell) :
    x ∈ Memory.insert i v m ↔ x = (i, v) ∨ x ∈ m := by
  induction m with
  | nil => simp [Memory.insert]
  | cons y m ih =>
    simp only [Memory.insert]
    split
    · simp
    · simp only [List.mem_cons, ih]
      tauto

theorem Memory.mem_write (m : Memory) (i : Nat) (v : Byte) {x : Host.Cell} (h : x ∈ m.write i v) :
    x.1 = i ∨ x ∈ m := by
  simp only [Memory.write] at h
  split at h
  · exact .inr (List.mem_filter.mp h).1
  · rcases (Memory.mem_insert _ _ _ _).mp h with rfl | h
    · exact .inl rfl
    · exact .inr (List.mem_filter.mp h).1

theorem Memory.wf_insert {m : Memory} (hm : m.wf) {i : Nat} {v : Byte} (hv : v ≠ 0) (hi : ∀ x ∈ m, x.1 ≠ i) :
    (Memory.insert i v m).wf := by
  refine ⟨?_, ?_⟩
  · induction m with
    | nil => simp [Memory.insert]
    | cons y m ih =>
      obtain ⟨hy, hmm⟩ := List.pairwise_cons.mp hm.1
      have hyi : y.1 ≠ i := hi y (by simp)
      simp only [Memory.insert]
      split
      · rename_i hlt
        refine List.pairwise_cons.mpr ⟨?_, hm.1⟩
        intro x hx
        rcases List.mem_cons.mp hx with rfl | hx
        · exact hlt
        · exact lt_trans hlt (hy x hx)
      · rename_i hlt
        refine List.pairwise_cons.mpr ⟨?_, ih ⟨hmm, fun x hx => hm.2 x (by simp [hx])⟩
          (fun x hx => hi x (by simp [hx]))⟩
        intro x hx
        rcases (Memory.mem_insert _ _ _ _).mp hx with rfl | hx
        · have : ¬ i < y.1 := hlt
          show y.1 < i
          omega
        · exact hy x hx
  · intro x hx
    rcases (Memory.mem_insert _ _ _ _).mp hx with rfl | hx
    · exact hv
    · exact hm.2 x hx

/-- A write keeps the canonical form. -/
theorem Memory.wf_write {m : Memory} (hm : m.wf) (i : Nat) (v : Byte) : (m.write i v).wf := by
  have hf : (m.erase i).wf := ⟨hm.1.filter _, fun x hx => hm.2 x (List.mem_filter.mp hx).1⟩
  simp only [Memory.write]
  split
  · exact hf
  · rename_i hv
    exact Memory.wf_insert hf hv (Memory.erase_ne m i)

/-- An index below every listed one reads 0x00. -/
theorem Memory.read_below (m : Memory) (i : Nat) (h : ∀ x ∈ m, i < x.1) : m.read i = 0 := by
  induction m with
  | nil => rfl
  | cons y m ih =>
    obtain ⟨k, v⟩ := y
    have hk : i < k := h (k, v) (by simp)
    simp only [Memory.read]
    rw [if_neg (by omega), ih (fun x hx => h x (by simp [hx]))]

/-- Two storages in canonical form that read alike are the same data. -/
theorem Memory.ext_of_wf {m n : Memory} (hm : m.wf) (hn : n.wf) (h : ∀ i, m.read i = n.read i) : m = n := by
  have mem_read : ∀ {m : Memory}, m.wf → ∀ x : Host.Cell, x ∈ m ↔ m.read x.1 = x.2 ∧ x.2 ≠ 0 := by
    rintro m hm ⟨i, u⟩
    induction m with
    | nil => simpa [Memory.read] using fun h => h.symm
    | cons y m ih =>
      obtain ⟨hy, hmm⟩ := List.pairwise_cons.mp hm.1
      have ih := ih ⟨hmm, fun x hx => hm.2 x (by simp [hx])⟩
      obtain ⟨k, w⟩ := y
      have hw : w ≠ 0 := hm.2 (k, w) (by simp)
      simp only [List.mem_cons, Memory.read, Prod.mk.injEq]
      by_cases hk : k = i
      · subst hk
        have : (k, u) ∉ m := fun hx => absurd (hy _ hx) (lt_irrefl k)
        simp only [this, if_true, true_and, or_false]
        exact ⟨by rintro rfl; exact ⟨rfl, hw⟩, fun h => h.1.symm⟩
      · simp only [hk, if_false, ← ih, Ne.symm hk, false_and, false_or]
  apply List.Perm.eq_of_pairwise (le := fun x y : Host.Cell => x.1 < y.1) ?_ hm.1 hn.1
  · exact (List.perm_ext_iff_of_nodup (hm.1.imp fun h => by rintro rfl; exact lt_irrefl _ h)
      (hn.1.imp fun h => by rintro rfl; exact lt_irrefl _ h)).mpr
      (fun x => by rw [mem_read hm, mem_read hn, h])
  · intro x y _ _ h1 h2
    exact absurd (lt_trans h1 h2) (lt_irrefl _)

/-! ## Regions and accesses -/

/-- The address of Working Memory: the region by numbers (R50, R55). -/
theorem region_eq_wram {cfg : Config} {w : Word} :
    region cfg w = .wram ↔ wramBase ≤ w.toNat ∧ w.toNat < wramBase + cfg.wramSize := by
  unfold region
  have : romEnd = 0x8000 := rfl
  have : wramBase = 0xC000 := rfl
  split <;> (try split) <;> (try split) <;> (simp_all; try omega)

theorem region_eq_rom {cfg : Config} {w : Word} : region cfg w = .rom ↔ w.toNat < romEnd := by
  unfold region
  split <;> (try split) <;> (try split) <;> simp_all

/-- A read sees the registers, PC, SP and the latches of no state: only WRAM, the cartridge, the parameters and
the device. -/
theorem memRead_congr {s t : State} (hw : t.wram = s.wram) (hv : t.cv = s.cv) (hc : t.cfg = s.cfg)
    (hd : t.ioDev = s.ioDev) (w : Word) : memRead t w = memRead s w := by
  simp only [memRead, ioRead, hw, hv, hc, hd]

@[simp] theorem memRead_setPc (s : State) (v w : Word) : memRead (setPc v s) w = memRead s w :=
  memRead_congr rfl rfl rfl rfl w

@[simp] theorem memRead_setSp (s : State) (v w : Word) : memRead (setSp v s) w = memRead s w :=
  memRead_congr rfl rfl rfl rfl w

@[simp] theorem memRead_setPend (s : State) (n : Nat) (w : Word) : memRead (setPend n s) w = memRead s w :=
  memRead_congr rfl rfl rfl rfl w

@[simp] theorem memRead_setReg (s : State) (r : Reg8) (v : Byte) (w : Word) :
    memRead (setReg r v s) w = memRead s w :=
  memRead_congr (by simp) (by simp) (by simp) (by simp) w

@[simp] theorem memRead_setPair (s : State) (p : Pair) (v w : Word) :
    memRead (setPair p v s) w = memRead s w :=
  memRead_congr (by simp) (by simp) (by simp) (by simp) w

@[simp] theorem memRead_setFlag (s : State) (x : Flag) (b : Bool) (w : Word) :
    memRead (setFlag x b s) w = memRead s w :=
  memRead_congr rfl rfl rfl rfl w

theorem memWrite_wram_of_region {s : State} {w : Word} (h : region s.cfg w = .wram) (v : Byte) :
    memWrite w v s = { s with wram := s.wram.write (w.toNat - wramBase) v } := by
  simp [memWrite, h]

/-- A write that is not to WRAM changes nothing (R58), with no device attached. -/
theorem memWrite_dropped {s : State} {w : Word} (h : region s.cfg w ≠ .wram)
    (hio : s.cfg.ioBacking = .none) (v : Byte) : memWrite w v s = s := by
  unfold memWrite ioWrite
  cases hr : region s.cfg w <;> simp_all

/-- A byte stored in Working Memory is read back (R52). -/
theorem memRead_memWrite_same {s : State} {w : Word} (h : region s.cfg w = .wram) (v : Byte) :
    memRead (memWrite w v s) w = .ok v := by
  rw [memWrite_wram_of_region h]
  simp [memRead, h, Memory.read_write]

/-- A write leaves every other address as it was (R52, R58), outside an attached device. -/
theorem memRead_memWrite_other {s : State} {w x : Word} (h : x ≠ w)
    (hio : s.cfg.ioBacking = .none ∨ region s.cfg x ≠ .io) (v : Byte) :
    memRead (memWrite w v s) x = memRead s x := by
  by_cases hw : region s.cfg w = .wram
  · rw [memWrite_wram_of_region hw]
    unfold memRead ioRead
    dsimp only
    cases hx : region s.cfg x <;> simp only
    congr 1
    rw [Memory.read_write, if_neg]
    have h1 := region_eq_wram.mp hw
    have h2 := region_eq_wram.mp hx
    intro he
    exact h (BitVec.eq_of_toNat_eq (by omega))
  · rcases hio with hio | hio
    · rw [memWrite_dropped hw hio]
    · unfold memWrite ioWrite
      cases hr : region s.cfg w <;> simp_all
      split <;> simp [memRead]
      cases hx : region s.cfg x <;> simp_all

/-- What a write can do to Working Memory: nothing, or one byte within WRAM_SIZE. -/
theorem memWrite_wram_cases (s : State) (w : Word) (v : Byte) :
    (memWrite w v s).wram = s.wram ∨
      ∃ k, k < s.cfg.wramSize ∧ (memWrite w v s).wram = s.wram.write k v := by
  unfold memWrite ioWrite
  cases hr : region s.cfg w
  · exact .inl rfl
  · exact .inr ⟨w.toNat - wramBase, by have := region_eq_wram.mp hr; omega, rfl⟩
  · left; dsimp only; split <;> rfl
  · exact .inl rfl

/-- The effective address of the high-page instructions as a number (R156, R158). -/
theorem highPage_toNat (n : Byte) : (highPage n).toNat = 0xFF00 + n.toNat := by
  revert n
  decide

/-- The offset within the I/O window of an effective address of the high-page instructions. -/
@[simp] theorem lo_highPage (n : Byte) : lo (highPage n) = n := by
  revert n
  decide

end Sys2Proof.Machine
end

