-- ==== Sys2Proof/Laws/Cartridge.lean ====
section
/-! SUPPORT. The Cartridge Validator: an image read back from a buffer, the checksum as a sum over the listed
bytes, and what a changed byte does to it. -/

namespace Sys2Proof.Machine

theorem cellsFrom_read (bytes : List Byte) (i j : Nat) :
    (cellsFrom i bytes).read j = if j < i then 0 else bytes.getD (j - i) 0 := by
  induction bytes generalizing i with
  | nil => simp [cellsFrom, Memory.read]
  | cons v bytes ih =>
    have key : (v :: bytes).getD (j - i) 0 = if j = i then v else if j < i then v else bytes.getD (j - (i + 1)) 0 := by
      rcases Nat.lt_trichotomy j i with h | h | h
      · simp [show j ≠ i by omega, h, show j - i = 0 by omega]
      · simp [h]
      · obtain ⟨d, rfl⟩ : ∃ d, j = i + 1 + d := ⟨j - (i + 1), by omega⟩
        simp [show i + 1 + d - i = d + 1 by omega, show ¬ i + 1 + d = i by omega, show ¬ i + 1 + d < i by omega]
    rw [key]
    simp only [cellsFrom]
    split
    · rename_i hv
      rw [ih]
      split_ifs <;> first | rfl | omega | simp_all
    · simp only [Memory.read, ih]
      split_ifs <;> first | rfl | omega

theorem cellsFrom_bounds (bytes : List Byte) (i : Nat) :
    ∀ x ∈ cellsFrom i bytes, i ≤ x.1 ∧ x.1 < i + bytes.length := by
  induction bytes generalizing i with
  | nil => simp [cellsFrom]
  | cons v bytes ih =>
    intro x hx
    have rest : x ∈ cellsFrom (i + 1) bytes → i ≤ x.1 ∧ x.1 < i + (v :: bytes).length := by
      intro h
      have := ih (i + 1) x h
      simp only [List.length_cons]
      omega
    simp only [cellsFrom] at hx
    split at hx
    · exact rest hx
    · rcases List.mem_cons.mp hx with rfl | hx
      · simp
      · exact rest hx

/-- The cells of a buffer are in canonical form. -/
theorem cellsFrom_wf (bytes : List Byte) (i : Nat) : (cellsFrom i bytes).wf := by
  induction bytes generalizing i with
  | nil => simp [cellsFrom, Memory.wf]
  | cons v bytes ih =>
    simp only [cellsFrom]
    split
    · exact ih (i + 1)
    · rename_i hv
      refine ⟨List.pairwise_cons.mpr ⟨fun x hx => ?_, (ih (i + 1)).1⟩, ?_⟩
      · exact (cellsFrom_bounds bytes (i + 1) x hx).1
      · intro x hx
        rcases List.mem_cons.mp hx with rfl | hx
        · exact hv
        · exact (ih (i + 1)).2 x hx

/-- The image of a buffer holds the buffer's bytes (R102). -/
theorem Image.ofBytes_byte (bytes : List Byte) (i : Nat) : (Image.ofBytes bytes).byte i = bytes.getD i 0 := by
  simp [Image.ofBytes, Image.byte, cellsFrom_read]

/-- Two images that differ at one offset differ in the sum by what that offset adds (R107). -/
theorem checksumUpTo_change {img img' : Image} {k : Nat} (h : ∀ i, i ≠ k → img'.byte i = img.byte i) (n : Nat) :
    checksumUpTo img' n + (if k < n then checksumTerm img k else 0) =
      checksumUpTo img n + (if k < n then checksumTerm img' k else 0) := by
  induction n with
  | zero => simp [checksumUpTo]
  | succ n ih =>
    have ht : n ≠ k → checksumTerm img' n = checksumTerm img n := fun hn => by simp [checksumTerm, h n hn]
    simp only [checksumUpTo]
    rcases Nat.lt_trichotomy k n with hk | hk | hk
    · rw [ht (by omega)]
      simp only [hk, if_true, show k < n + 1 by omega] at ih ⊢
      rw [add_right_comm, ih, add_right_comm]
    · subst hk
      simp only [lt_irrefl, if_false, add_zero, show k < k + 1 by omega, if_true] at ih ⊢
      rw [ih, add_right_comm]
    · rw [ht (by omega)]
      simp only [show ¬ k < n by omega, show ¬ k < n + 1 by omega, if_false, add_zero] at ih ⊢
      rw [ih]

/-- The sum over the listed bytes of an image. -/
def cellSum : Memory → Word
  | [] => 0
  | (k, v) :: m => cellSum m + (if isChecksumOffset k then 0 else zext v)

/-- The checksum of an image in canonical form is the sum over its listed bytes: the fast form of R107. -/
theorem checksumUpTo_eq_cellSum {m : Memory} (hm : m.wf) {len n : Nat} (hn : ∀ x ∈ m, x.1 < n) :
    checksumUpTo ⟨len, m⟩ n = cellSum m := by
  induction m with
  | nil =>
    clear hn
    induction n with
    | zero => rfl
    | succ n ih =>
      rw [checksumUpTo, ih]
      simp [checksumTerm, Image.byte, Memory.read, cellSum, zext]
  | cons y m ih =>
    obtain ⟨k, v⟩ := y
    obtain ⟨hy, hmm⟩ := List.pairwise_cons.mp hm.1
    have ih := ih ⟨hmm, fun x hx => hm.2 x (by simp [hx])⟩ (fun x hx => hn x (by simp [hx]))
    have h0 : Memory.read m k = 0 := Memory.read_below m k hy
    have hk : k < n := hn (k, v) (by simp)
    have := checksumUpTo_change (img := ⟨len, m⟩) (img' := ⟨len, (k, v) :: m⟩) (k := k)
      (fun i hi => by simp [Image.byte, Memory.read, Ne.symm hi]) n
    simp only [hk, if_true, checksumTerm, Image.byte, h0, Memory.read] at this
    simp only [cellSum, ← ih]
    simpa [zext] using this

/-- The read port of a loaded cartridge inside the image (R110). -/
theorem cartRead8_loaded {c : Cartridge} {i : Nat} (h : i < romLen) :
    cartRead8 (.loaded c) i = .ok (c.rom.read i) := by
  have : romLen = 0x8000 := rfl
  simp only [cartRead8, romByte]
  rw [Nat.mod_eq_of_lt (by omega), if_pos h]

/-- What a successful validation says of the image (R104). -/
theorem validate_ok_iff {img : Image} {c : Cartridge} :
    validate img = .ok c ↔
      signatureOk img = true ∧ layoutOk img = true ∧ checksumOk img = true ∧ c = cartridgeOf img := by
  simp only [validate]
  cases signatureOk img <;> cases layoutOk img <;> cases checksumOk img <;> simp [eq_comm]

/-- The start vector of a loaded cartridge, low byte first (R113). -/
theorem startVector_loaded (c : Cartridge) :
    startVector (.loaded c) = .ok (cat (c.rom.read 0x103) (c.rom.read 0x102)) := by
  have h1 : cartRead8 (.loaded c) 0x102 = .ok (c.rom.read 0x102) := cartRead8_loaded (by decide)
  have h2 : cartRead8 (.loaded c) 0x103 = .ok (c.rom.read 0x103) := cartRead8_loaded (by decide)
  simp [startVector, cartRead16, h1, h2]

end Sys2Proof.Machine
end

