-- ==== Sys2Proof/Laws/Decode.lean ====
section
/-! SUPPORT. The dispatch table beside the encoder: the row at an instruction's opcode byte makes that instruction
from its operand bytes, and every row is some instruction's. -/

namespace Sys2Proof

/-- A row of the dispatch table makes the given instruction from its own operand bytes. -/
def OpEntry.makes (i : Instr) : OpEntry → Prop
  | .op j => i.form.operands = [] ∧ j = i
  | .opN f => ∃ n, i.form.operands = [n] ∧ f n = i
  | .opNN f => ∃ nn, i.form.operands = [Machine.lo nn, Machine.hi nn] ∧ f nn = i

/-- The row at an instruction's opcode byte makes that instruction. -/
theorem lookup_opcode (i : Instr) : ∃ e, lookup i.opcode = some e ∧ e.makes i := by
  cases i
  all_goals first
    | exact ⟨_, rfl, rfl, rfl⟩
    | exact ⟨_, rfl, _, rfl, rfl⟩

/-- A row without operands: its instruction has the row's opcode byte and no operand byte. -/
theorem op_row {op : Byte} {i : Instr} (h : lookup op = some (.op i)) :
    i.opcode = op ∧ i.form.operands = [] := by
  unfold lookup at h
  split at h
  case h_114 => exact absurd h (by simp)
  all_goals
    rename_i hop
    simp only [Option.some.injEq, reduceCtorEq, OpEntry.op.injEq] at h
  all_goals
    subst h
    exact ⟨BitVec.eq_of_toNat_eq (by rw [hop]; rfl), rfl⟩

/-- A row of one operand byte: its instructions have the row's opcode byte and that operand byte. -/
theorem opN_row {op : Byte} {f : Byte → Instr} (h : lookup op = some (.opN f)) (n : Byte) :
    (f n).opcode = op ∧ (f n).form.operands = [n] := by
  unfold lookup at h
  split at h
  case h_114 => exact absurd h (by simp)
  all_goals
    rename_i hop
    simp only [Option.some.injEq, reduceCtorEq, OpEntry.opN.injEq] at h
  all_goals
    subst h
    exact ⟨BitVec.eq_of_toNat_eq (by rw [hop]; rfl), rfl⟩

/-- A row of two operand bytes: its instructions have the row's opcode byte and the word's two bytes. -/
theorem opNN_row {op : Byte} {f : Word → Instr} (h : lookup op = some (.opNN f)) (nn : Word) :
    (f nn).opcode = op ∧ (f nn).form.operands = [Machine.lo nn, Machine.hi nn] := by
  unfold lookup at h
  split at h
  case h_114 => exact absurd h (by simp)
  all_goals
    rename_i hop
    simp only [Option.some.injEq, reduceCtorEq, OpEntry.opNN.injEq] at h
  all_goals
    subst h
    exact ⟨BitVec.eq_of_toNat_eq (by rw [hop]; rfl), rfl⟩

end Sys2Proof
end

