-- ==== Sys2Proof/Laws/Exec.lean ====
section
/-! SUPPORT. The meanings by class: `exec` as a function of the class of R88, and what the shared bodies can
do. -/

namespace Sys2Proof.Machine

/-- The shared body of each class. -/
def execForm (s : State) : Form → Result
  | .nop => nopBody s
  | .ldRRnn p nn => loadPairImm p nn s
  | .ldAtRRA p => storeAccAt p s
  | .decRR p => decPair p s
  | .decR r => decReg r s
  | .ldRn r n => loadImm r n s
  | .jr c e => jumpRel c e s
  | .ldAtHLdecA => storeAccDec s
  | .ldRR r r' => loadReg r r' s
  | .andR r => andReg r s
  | .xorR r => xorReg r s
  | .cpR r => cpReg r s
  | .retCc c => returnIf c s
  | .jp nn => jumpAbs nn s
  | .ret => returnAlways s
  | .call nn => callAbs nn s
  | .ldhNA n => storeHigh n s
  | .andN n => andImm n s
  | .xorN n => xorImm n s
  | .ldhAN n => loadHigh n s
  | .di => setIme false s
  | .cpN n => cpImm n s
  | .ei => setIme true s

/-- Every instruction runs the shared body of its class. -/
theorem exec_eq_execForm (i : Instr) (s : State) : exec i s = execForm s i.form := by
  cases i <;> rfl

theorem pop16_eq (s : State) : pop16 s =
    match memRead s s.sp with
    | .error r => .error r
    | .ok low =>
      match memRead s (s.sp + 1) with
      | .error r => .error r
      | .ok high => .ok (cat high low, setSp (s.sp + 2) s) := by
  have h2 : s.sp + 1 + 1 = s.sp + 2 := by bv_omega
  simp only [pop16, memRead_setSp, setSp_sp, h2]
  rfl

/-- A return: both stack bytes read, or the fault of the first that cannot be (R65). -/
theorem popPc_eq (n : Nat) (s : State) : popPc n s =
    match memRead s s.sp with
    | .error r => .fault r
    | .ok low =>
      match memRead s (s.sp + 1) with
      | .error r => .fault r
      | .ok high => .next (setPend (n - 1) (setPc (cat high low) (setSp (s.sp + 2) s))) := by
  simp only [popPc, pop16_eq, raise, done]
  cases memRead s s.sp with
  | error r => rfl
  | ok low =>
    dsimp only
    cases memRead s (s.sp + 1) <;> rfl

/-- What a taken return can answer. -/
theorem popPc_next {n : Nat} {s t : State} (h : popPc n s = .next t) :
    ∃ v, t = setPend (n - 1) (setPc v (setSp (s.sp + 2) s)) := by
  rw [popPc_eq] at h
  split at h
  · exact absurd h (by simp)
  · split at h
    · exact absurd h (by simp)
    · cases h
      exact ⟨_, rfl⟩

/-- What `LDH A,(n)` can answer. -/
theorem loadHigh_next {n : Byte} {s t : State} (h : loadHigh n s = .next t) :
    ∃ v, memRead s (highPage n) = .ok v ∧ t = setPend (s.cfg.cost.ldhAN - 1) (setReg .A v s) := by
  simp only [loadHigh, raise, done] at h
  split at h
  · rename_i v hv
    cases h
    exact ⟨v, hv, rfl⟩
  · exact absurd h (by simp)

/-- The parts of the state that no instruction writes: FLT, the cartridge, the parameters, `begun`. -/
theorem exec_keeps_system {i : Instr} {s t : State} (h : exec i s = .next t) :
    t.flt = s.flt ∧ t.cv = s.cv ∧ t.cfg = s.cfg ∧ t.begun = s.begun := by
  rw [exec_eq_execForm] at h
  cases hf : i.form <;> rw [hf] at h <;> simp only [execForm] at h
  case ret =>
    obtain ⟨v, rfl⟩ := popPc_next h
    exact ⟨rfl, rfl, rfl, rfl⟩
  case retCc c =>
    simp only [returnIf] at h
    split at h
    · obtain ⟨v, rfl⟩ := popPc_next h
      exact ⟨rfl, rfl, rfl, rfl⟩
    · cases h
      exact ⟨rfl, rfl, rfl, rfl⟩
  case ldhAN n =>
    obtain ⟨v, -, rfl⟩ := loadHigh_next h
    exact ⟨rfl, rfl, rfl, rfl⟩
  case jr c e =>
    simp only [jumpRel] at h
    split at h <;> cases h <;> exact ⟨rfl, rfl, rfl, rfl⟩
  all_goals
    cases h
    simp [xorAcc, andAcc, cpAcc]

/-- What an instruction can do to Working Memory: it keeps the canonical form and stays within WRAM_SIZE. -/
theorem memWrite_keeps_wram {s : State} (h : s.wram.wf ∧ ∀ x ∈ s.wram, x.1 < s.cfg.wramSize) (w : Word)
    (v : Byte) : (memWrite w v s).wram.wf ∧ ∀ x ∈ (memWrite w v s).wram, x.1 < s.cfg.wramSize := by
  rcases memWrite_wram_cases s w v with he | ⟨k, hk, he⟩ <;> rw [he]
  · exact h
  · refine ⟨Memory.wf_write h.1 k v, fun x hx => ?_⟩
    rcases Memory.mem_write _ _ _ hx with hx | hx
    · omega
    · exact h.2 x hx

/-- A push is two byte stores (R64). -/
theorem push16_eq (v : Word) (s : State) : push16 v s =
    memWrite (s.sp - 2) (lo v) (setSp (s.sp - 2) (memWrite (s.sp - 1) (hi v) (setSp (s.sp - 1) s))) := by
  have h2 : s.sp - 1 - 1 = s.sp - 2 := by bv_omega
  simp only [push16, memWrite_sp, setSp_sp, h2]

theorem push16_keeps_wram {s : State} (h : s.wram.wf ∧ ∀ x ∈ s.wram, x.1 < s.cfg.wramSize) (v : Word) :
    (push16 v s).wram.wf ∧ ∀ x ∈ (push16 v s).wram, x.1 < s.cfg.wramSize := by
  have h1 := memWrite_keeps_wram (s := setSp (s.sp - 1) s) h (s.sp - 1) (hi v)
  have h2 := memWrite_keeps_wram (s := setSp (s.sp - 2) (memWrite (s.sp - 1) (hi v) (setSp (s.sp - 1) s)))
    (by rw [setSp_cfg, memWrite_cfg]; exact h1) (s.sp - 2) (lo v)
  rw [setSp_cfg, memWrite_cfg] at h2
  rw [push16_eq]
  exact h2

theorem exec_keeps_wram {i : Instr} {s t : State} (h : exec i s = .next t)
    (hw : s.wram.wf ∧ ∀ x ∈ s.wram, x.1 < s.cfg.wramSize) :
    t.wram.wf ∧ ∀ x ∈ t.wram, x.1 < s.cfg.wramSize := by
  rw [exec_eq_execForm] at h
  cases hf : i.form <;> rw [hf] at h <;> simp only [execForm] at h
  case ret =>
    obtain ⟨v, rfl⟩ := popPc_next h
    exact hw
  case retCc c =>
    simp only [returnIf] at h
    split at h
    · obtain ⟨v, rfl⟩ := popPc_next h
      exact hw
    · cases h
      exact hw
  case ldhAN n =>
    obtain ⟨v, -, rfl⟩ := loadHigh_next h
    exact hw
  case jr c e =>
    simp only [jumpRel] at h
    split at h <;> cases h <;> exact hw
  case ldAtRRA p =>
    cases h
    exact memWrite_keeps_wram hw _ _
  case ldhNA n =>
    cases h
    exact memWrite_keeps_wram hw _ _
  case ldAtHLdecA =>
    cases h
    simpa using memWrite_keeps_wram hw _ _
  case call nn =>
    cases h
    exact push16_keeps_wram hw _
  all_goals
    cases h
    simpa [xorAcc, andAcc, cpAcc] using hw

/-- The high byte of a push stands at SP - 1 (R64), where that is Working Memory. -/
theorem memRead_push16_high {s : State} {v : Word} (h : region s.cfg (s.sp - 1) = .wram) :
    memRead (push16 v s) (s.sp - 1) = .ok (hi v) := by
  have hne : s.sp - 1 ≠ s.sp - 2 := by bv_omega
  rw [push16_eq, memRead_memWrite_other hne, memRead_setSp, memRead_memWrite_same]
  · exact h
  · right
    rw [setSp_cfg, memWrite_cfg, setSp_cfg, h]
    decide

/-- The low byte of a push stands at SP - 2 (R64), where that is Working Memory. -/
theorem memRead_push16_low {s : State} {v : Word} (h : region s.cfg (s.sp - 2) = .wram) :
    memRead (push16 v s) (s.sp - 2) = .ok (lo v) := by
  rw [push16_eq, memRead_memWrite_same]
  rw [setSp_cfg, memWrite_cfg, setSp_cfg, h]

/-- A push leaves every other address as it was. -/
theorem memRead_push16_other {s : State} {v : Word} {x : Word} (h1 : x ≠ s.sp - 1) (h2 : x ≠ s.sp - 2)
    (hio : s.cfg.ioBacking = .none ∨ region s.cfg x ≠ .io) : memRead (push16 v s) x = memRead s x := by
  rw [push16_eq, memRead_memWrite_other h2, memRead_setSp, memRead_memWrite_other h1, memRead_setSp]
  · simpa using hio
  · simpa using hio

/-- What `JR cc,e` answers: the target when taken, the state past the operand otherwise (R142). -/
theorem jumpRel_next {c : Cond} {e : Byte} {s t : State} (h : jumpRel c e s = .next t) :
    t = if Machine.cond s c then setPend (s.cfg.cost.jrTaken - 1) (setPc (s.pc + sext e) s)
      else setPend (s.cfg.cost.jrNotTaken - 1) s := by
  simp only [jumpRel] at h
  split at h <;> cases h <;> simp [*]

end Sys2Proof.Machine
end

