-- ==== Sys2Proof/Laws/Engine.lean ====
section
/-! SUPPORT. What a step can do: the executing tick by the rows of the dispatch table, and the causes of a
fault. -/

namespace Sys2Proof.Machine

/-- A byte outside IMPL raises (R90). -/
theorem fetchExecute_other {s : State} {op : Byte} (hm : memRead s s.pc = .ok op)
    (hc : s.cfg.impl.contains op = false) : fetchExecute s = .fault (.unimplementedOpcode op s.pc) := by
  simp only [fetchExecute, hm, hc, raise, Bool.not_false, if_true]

/-- Which bytes have a row: the 113 bytes of R89. -/
theorem lookup_isSome (op : Byte) : (lookup op).isSome = defaultImpl.contains op := by
  have : ∀ op : Byte, (lookup op).isSome = defaultImpl.contains op := by decide +kernel
  exact this op

/-- The executing tick on a byte of IMPL: the operand bytes are read at the next addresses and PC ends past them. -/
theorem fetchExecute_op {s : State} {op : Byte} (hm : memRead s s.pc = .ok op) (hc : s.cfg.impl.contains op = true) :
  fetchExecute s = match lookup op with
      | none => .fault (.unimplementedOpcode op s.pc)
      | some (.op i) => exec i (setPc (s.pc + 1) s)
      | some (.opN f) =>
        match memRead s (s.pc + 1) with
        | .error r => .fault r
        | .ok n => exec (f n) (setPc (s.pc + 2) s)
      | some (.opNN f) =>
        match memRead s (s.pc + 1) with
        | .error r => .fault r
        | .ok low => 
          match memRead s (s.pc + 2) with
          | .error r => .fault r
          | .ok high => exec (f (cat high low)) (setPc (s.pc + 3) s) := by
  have h2 : s.pc + 1 + 1 = s.pc + 2 := by bv_omega
  have h3 : s.pc + 2 + 1 = s.pc + 3 := by bv_omega
  have hs (v w : Word) : setPc v (setPc w s) = setPc v s := rfl
  simp only [fetchExecute, hm, hc, raise, Bool.not_true, Bool.false_eq_true, if_false]
  cases lookup op with
  | none => rfl
  | some e =>
    cases e with
    | op i => rfl
    | opN f =>
      simp only [imm8, memRead_setPc, setPc_pc, hs, h2]
      cases memRead s (s.pc + 1) <;> rfl
    | opNN f => 
      simp only [imm16, imm8, memRead_setPc, setPc_pc, hs, h2]
      cases memRead s (s.pc + 1) with
      | error r => rfl
      | ok v => 
        simp only [setPc_pc, memRead_setPc, hs, h3]
        cases memRead s (s.pc + 2) <;> rfl

/-- A ready state executes. -/
theorem step_ready {s : State} (h : s.ready) : step s = fetchExecute s := by
  simp [step, tick, h.1, h.2.1, h.2.2]

/-- The three kinds of row. -/
theorem lookup_cases (i : Instr) : 
   (lookup i.opcode = some (.op i) ∧ i.form.operands = []) ∨ (∃ f n, lookup i.opcode = some (.opN f) ∧ i.form.operands = [n] ∧ f n = i)
   ∨ (∃ f nn, lookup i.opcode = some (.opNN f) ∧ i.form.operands = [lo nn, Machine.hi nn] ∧ f nn = i) := by
  obtain ⟨e, he, hm⟩ := lookup_opcode i
  match e, hm with
  | .op j, hm => obtain ⟨h, rfl⟩ := hm; exact .inl ⟨he, h⟩
  | .opN f, hm => obtain ⟨n, h, hf⟩ := hm; exact .inr (.inl ⟨f, n, he, h, hf⟩)
  | .opNN f, hm => obtain ⟨n, h, hf⟩ := hm; exact .inr (.inr ⟨f, n, he, h, hf⟩)

/-- What a read that raises says of its address. -/
theorem memRead_error {s : State} {w : Word} {r : Fault} (h : memRead s w = .error r) :
    (r = .cartridgeNotLoaded ∧ s.cv.isLoaded = false) ∨ (r = .unmappedAddress w ∧ (region s.cfg w = .io ∨ region s.cfg w = .unmapped)) := by
  unfold memRead at h
  split at h
  · left
    unfold cartRead8 at h
    split at h <;> simp_all [Validator.isLoaded]
  · simp at h
  · right
    unfold ioRead at h
    split at h
    · simp_all
    · split at h <;> simp_all
  · right
    simp_all

/-- A meaning faults only with the fault of a byte it could not read. -/
theorem exec_fault {i : Instr} {s : State} {r : Fault} (h : exec i s = .fault r) : ∃ w, memRead s w = .error r := by
  rw [exec_eq_execForm] at h
  have hp : ∀ n, popPc n s = .fault r → ∃ w, memRead s w = .error r := by
    intro n h
    rw [popPc_eq] at h
    split at h
    · rename_i hm; cases h; exact ⟨_, hm⟩
    · split at h
      · rename_i hm; cases h; exact ⟨_, hm⟩
      · simp at h
  cases hf : i.form <;> rw [hf] at h <;> simp only [execForm] at h
  case ret => exact hp _ h
  case retCc c =>
    simp only [returnIf] at h
    split at h
    · exact hp _ h
    · simp [done] at h
  case ldhAN n => 
    simp only [loadHigh] at h
    split at h
    · simp [done] at h
    · rename_i hm; cases h; exact ⟨_, hm⟩
  case jr c e =>
    simp only [jumpRel] at h
    split at h <;> simp [done] at h
  all_goals simp [nopBody, loadPairImm, storeAccAt, decPair, decReg, loadImm, storeAccDec, loadReg, andReg, xorReg, cpReg, jumpAbs, callAbs, storeHigh, andImm, xorImm, setIme, cpImm, done] at h

/-- What a faulting step says: the engine was ready, and a byte could not be read or the opcode byte has no handler. -/
theorem step_fault_cases {s : State} {r : Fault} (h : step s = .fault r) : s.ready ∧
   ((∃ w, memRead s w = .error r) ∨ (∃ op, r = .unimplementedOpcode op s.pc ∧ memRead s s.pc = .ok op ∧ (s.cfg.impl.contains op = false ∨ lookup op = none))) := by
  simp only [step, tick] at h
  split at h
  · simp at h
  split at h
  · simp at h
  split at h
  swap
  · simp at h
  rename_i h1 h2 h3
  refine ⟨⟨by simpa using h1, by simpa using h2, h3⟩, ?_⟩
  cases hm : memRead s s.pc with
  | error r' => 
    left
    simp [fetchExecute, hm, raise] at h
    exact ⟨_, h ▸ hm⟩
  | ok op =>
    cases hc : s.cfg.impl.contains op with
    | false => 
      simp [fetchExecute, hm, raise] at h
      simp only [List.contains_eq_mem, decide_eq_false_iff_not] at hc
      simp only [hc] at h
      right
      simp at h
      exact ⟨op, h.symm, rfl, .inl (by simpa using hc)⟩
    | true =>
      rw [fetchExecute_op hm hc] at h
      split at h
      · right; cases h; exact ⟨op, rfl, rfl, .inr (by assumption)⟩
      · left; simpa using exec_fault h
      · left
        split at h
        · rename_i h'; cases h; exact ⟨_, h'⟩
        · simpa using exec_fault h
      · left
        split at h
        · rename_i h'; cases h; exact ⟨_, h'⟩
        · split at h
          · rename_i h'; cases h; exact ⟨_, h'⟩
          · simpa using exec_fault h

/-- What a step can do when it answers a next state: nothing under a latched fault, one idle cycle, or the
execution of one instruction of IMPL whose opcode byte stands at PC, with PC moved past it. -/
theorem step_next_cases {s t : State} (h : step s = .next t) : s.begun = true ∧
   ((s.flt ≠ none ∧ t = s) ∨ (s.flt = none ∧ 0 < s.pend ∧ t = setPend (s.pend - 1) s) ∨ (s.ready ∧ 
     ∃ i op v, memRead s s.pc = .ok op ∧ s.cfg.impl.contains op = true ∧ i.opcode = op ∧ v = s.pc + BitVec.ofNat 16 i.length ∧ exec i (setPc v s) = .next t)) := by
  simp only [step, tick] at h
  split at h
  · simp at h
  rename_i h1
  refine ⟨by simpa using h1, ?_⟩
  split at h
  · rename_i h2
    cases h
    exact .inl ⟨by intro h3; simp [h3] at h2, rfl⟩
  rename_i h2
  have h2 : s.flt = none := by simpa using h2
  split at h
  swap
  · cases h
    rename_i h3
    exact .inr (.inl ⟨h2, by omega, rfl⟩)
  rename_i h3
  refine .inr (.inr ⟨⟨by simpa using h1, h2, h3⟩, ?_⟩)
  cases hm : memRead s s.pc with
  | error r => simp [fetchExecute, hm, raise] at h
  | ok op =>
    cases hc : s.cfg.impl.contains op with
    | false => rw [fetchExecute_other hm hc] at h; simp at h
    | true =>
      rw [fetchExecute_op hm hc] at h
      split at h
      · simp at h
      · rename_i i hl
        refine ⟨i, op, _, rfl, hc, (op_row hl).1, rfl, ?_⟩
        rw [← h]; simp [Instr.length, encode, (op_row hl).2]
      · rename_i f hl
        split at h
        · simp at h
        · rename_i n _
          refine ⟨f n, op, _, rfl, hc, (opN_row hl n).1, rfl, ?_⟩
          rw [← h]; simp [Instr.length, encode, (opN_row hl n).2]
      · rename_i f hl
        split at h
        · simp at h
        · split at h
          · simp at h
          · rename_i v1 _ _ v2 _
            refine ⟨f (cat v2 v1), op, _, rfl, hc, (opNN_row hl _).1, rfl, ?_⟩
            rw [← h]; simp [Instr.length, encode, (opNN_row hl _).2]

/-- What a fault leaves alone, and what it latches (R132, R208, R209); the registers are free. -/
theorem latchFault_keeps (r : Fault) (k : Nat) (s : State) :
    (latchFault r k s).flt = some r ∧ (latchFault r k s).pend = s.pend ∧ (latchFault r k s).wram = s.wram ∧
      (latchFault r k s).ime = s.ime ∧ (latchFault r k s).cv = s.cv ∧ (latchFault r k s).cfg = s.cfg ∧
      (latchFault r k s).begun = s.begun ∧ (latchFault r k s).ioDev = s.ioDev :=
  ⟨rfl, rfl, rfl, rfl, rfl, rfl, rfl, rfl⟩

/-- The invariant of the machine gives that of a session. -/
theorem Inv.latched {s : State} (h : Inv s) : LatchedInv s := ⟨h.1, fun _ => h.2.1, h.2.2⟩

/-- With no fault latched the two invariants say the same. -/
theorem LatchedInv.inv {s : State} (h : LatchedInv s) (hf : s.flt = none) : Inv s := ⟨h.1, h.2.1 hf, h.2.2⟩

/-- A fault turns the invariant into that of a session, whatever its free values are. -/
theorem latchFault_inv {s : State} (h : LatchedInv s) (r : Fault) (k : Nat) : LatchedInv (latchFault r k s) :=
  ⟨h.1, fun hf => (nomatch hf), h.2.2⟩

/-- What `begin` leaves alone (R234), and the registers it clears (R232). -/
theorem beginOp_keeps (s : State) : (beginOp s).wram = s.wram ∧ (beginOp s).cfg = s.cfg ∧
    (beginOp s).cv = s.cv ∧ (beginOp s).ioDev = s.ioDev ∧ ∀ r, (beginOp s).reg r = 0 := by
  unfold beginOp
  simp only
  split <;> exact ⟨rfl, rfl, rfl, rfl, fun r => by cases r <;> rfl⟩

/-- The accumulator bounds a running maximum. -/
theorem foldl_max_ge (l : List Nat) (a : Nat) : a ≤ l.foldl max a := by
  induction l generalizing a with
  | nil => exact Nat.le_refl _
  | cons y l ih => exact Nat.le_trans (Nat.le_max_left _ _) (ih _)

/-- Every element is below the maximum: with it, every cost is below `maxCost`. -/
theorem le_foldl_max {l : List Nat} {x : Nat} (h : x ∈ l) (a : Nat) : x ≤ l.foldl max a := by
  induction l generalizing a with
  | nil => simp at h
  | cons y l ih =>
    rcases List.mem_cons.mp h with rfl | h
    · exact Nat.le_trans (Nat.le_max_right _ _) (foldl_max_ge l _)
    · exact ih h _

end Sys2Proof.Machine
end

