-- ==== Sys2Proof/Laws/PerInstr.lean ====
section
/-! SUPPORT. What holds of each instruction as syntax: its opcode byte is a member of IMPL (30_encoding.md R89), the
dispatch table has its row there, and its length is that of R82 by format. One lemma per constructor. -/

namespace Sys2Proof.Laws.EncodesIntoImpl

/-- The opcode byte of the instruction is in the default IMPL, and the instruction is 1 to 3 bytes long. -/
def Statement (i : Instr) : Prop :=
  Machine.defaultImpl.contains i.opcode = true ∧ (lookup i.opcode).isSome = true ∧ 1 ≤ i.length ∧ i.length ≤ 3

theorem nop : Statement .nop := ⟨rfl, rfl, by decide, by decide⟩
theorem ld_BC_nn (nn : Word) : Statement (.ld_BC_nn nn) := ⟨rfl, rfl, Nat.le_of_ble_eq_true rfl, Nat.le_of_ble_eq_true rfl⟩
theorem ld_atBC_A : Statement .ld_atBC_A := ⟨rfl, rfl, by decide, by decide⟩
theorem dec_B : Statement .dec_B := ⟨rfl, rfl, by decide, by decide⟩
theorem ld_B_n (n : Byte) : Statement (.ld_B_n n) := ⟨rfl, rfl, Nat.le_of_ble_eq_true rfl, Nat.le_of_ble_eq_true rfl⟩
theorem dec_BC : Statement .dec_BC := ⟨rfl, rfl, by decide, by decide⟩
theorem dec_C : Statement .dec_C := ⟨rfl, rfl, by decide, by decide⟩
theorem ld_C_n (n : Byte) : Statement (.ld_C_n n) := ⟨rfl, rfl, Nat.le_of_ble_eq_true rfl, Nat.le_of_ble_eq_true rfl⟩
theorem ld_DE_nn (nn : Word) : Statement (.ld_DE_nn nn) := ⟨rfl, rfl, Nat.le_of_ble_eq_true rfl, Nat.le_of_ble_eq_true rfl⟩
theorem ld_atDE_A : Statement .ld_atDE_A := ⟨rfl, rfl, by decide, by decide⟩
theorem dec_D : Statement .dec_D := ⟨rfl, rfl, by decide, by decide⟩
theorem ld_D_n (n : Byte) : Statement (.ld_D_n n) := ⟨rfl, rfl, Nat.le_of_ble_eq_true rfl, Nat.le_of_ble_eq_true rfl⟩
theorem dec_DE : Statement .dec_DE := ⟨rfl, rfl, by decide, by decide⟩
theorem dec_E : Statement .dec_E := ⟨rfl, rfl, by decide, by decide⟩
theorem ld_E_n (n : Byte) : Statement (.ld_E_n n) := ⟨rfl, rfl, Nat.le_of_ble_eq_true rfl, Nat.le_of_ble_eq_true rfl⟩
theorem jr_NZ_e (e : Byte) : Statement (.jr_NZ_e e) := ⟨rfl, rfl, Nat.le_of_ble_eq_true rfl, Nat.le_of_ble_eq_true rfl⟩
theorem ld_HL_nn (nn : Word) : Statement (.ld_HL_nn nn) := ⟨rfl, rfl, Nat.le_of_ble_eq_true rfl, Nat.le_of_ble_eq_true rfl⟩
theorem dec_H : Statement .dec_H := ⟨rfl, rfl, by decide, by decide⟩
theorem ld_H_n (n : Byte) : Statement (.ld_H_n n) := ⟨rfl, rfl, Nat.le_of_ble_eq_true rfl, Nat.le_of_ble_eq_true rfl⟩
theorem jr_Z_e (e : Byte) : Statement (.jr_Z_e e) := ⟨rfl, rfl, Nat.le_of_ble_eq_true rfl, Nat.le_of_ble_eq_true rfl⟩
theorem dec_HL : Statement .dec_HL := ⟨rfl, rfl, by decide, by decide⟩
theorem dec_L : Statement .dec_L := ⟨rfl, rfl, by decide, by decide⟩
theorem ld_L_n (n : Byte) : Statement (.ld_L_n n) := ⟨rfl, rfl, Nat.le_of_ble_eq_true rfl, Nat.le_of_ble_eq_true rfl⟩
theorem jr_NC_e (e : Byte) : Statement (.jr_NC_e e) := ⟨rfl, rfl, Nat.le_of_ble_eq_true rfl, Nat.le_of_ble_eq_true rfl⟩
theorem ld_atHLdec_A : Statement .ld_atHLdec_A := ⟨rfl, rfl, by decide, by decide⟩
theorem jr_C_e (e : Byte) : Statement (.jr_C_e e) := ⟨rfl, rfl, Nat.le_of_ble_eq_true rfl, Nat.le_of_ble_eq_true rfl⟩
theorem dec_A : Statement .dec_A := ⟨rfl, rfl, by decide, by decide⟩
theorem ld_A_n (n : Byte) : Statement (.ld_A_n n) := ⟨rfl, rfl, Nat.le_of_ble_eq_true rfl, Nat.le_of_ble_eq_true rfl⟩
theorem ld_B_B : Statement .ld_B_B := ⟨rfl, rfl, by decide, by decide⟩
theorem ld_B_C : Statement .ld_B_C := ⟨rfl, rfl, by decide, by decide⟩
theorem ld_B_D : Statement .ld_B_D := ⟨rfl, rfl, by decide, by decide⟩
theorem ld_B_E : Statement .ld_B_E := ⟨rfl, rfl, by decide, by decide⟩
theorem ld_B_H : Statement .ld_B_H := ⟨rfl, rfl, by decide, by decide⟩
theorem ld_B_L : Statement .ld_B_L := ⟨rfl, rfl, by decide, by decide⟩
theorem ld_B_A : Statement .ld_B_A := ⟨rfl, rfl, by decide, by decide⟩
theorem ld_C_B : Statement .ld_C_B := ⟨rfl, rfl, by decide, by decide⟩
theorem ld_C_C : Statement .ld_C_C := ⟨rfl, rfl, by decide, by decide⟩
theorem ld_C_D : Statement .ld_C_D := ⟨rfl, rfl, by decide, by decide⟩
theorem ld_C_E : Statement .ld_C_E := ⟨rfl, rfl, by decide, by decide⟩
theorem ld_C_H : Statement .ld_C_H := ⟨rfl, rfl, by decide, by decide⟩
theorem ld_C_L : Statement .ld_C_L := ⟨rfl, rfl, by decide, by decide⟩
theorem ld_C_A : Statement .ld_C_A := ⟨rfl, rfl, by decide, by decide⟩
theorem ld_D_B : Statement .ld_D_B := ⟨rfl, rfl, by decide, by decide⟩
theorem ld_D_C : Statement .ld_D_C := ⟨rfl, rfl, by decide, by decide⟩
theorem ld_D_D : Statement .ld_D_D := ⟨rfl, rfl, by decide, by decide⟩
theorem ld_D_E : Statement .ld_D_E := ⟨rfl, rfl, by decide, by decide⟩
theorem ld_D_H : Statement .ld_D_H := ⟨rfl, rfl, by decide, by decide⟩
theorem ld_D_L : Statement .ld_D_L := ⟨rfl, rfl, by decide, by decide⟩
theorem ld_D_A : Statement .ld_D_A := ⟨rfl, rfl, by decide, by decide⟩
theorem ld_E_B : Statement .ld_E_B := ⟨rfl, rfl, by decide, by decide⟩
theorem ld_E_C : Statement .ld_E_C := ⟨rfl, rfl, by decide, by decide⟩
theorem ld_E_D : Statement .ld_E_D := ⟨rfl, rfl, by decide, by decide⟩
theorem ld_E_E : Statement .ld_E_E := ⟨rfl, rfl, by decide, by decide⟩
theorem ld_E_H : Statement .ld_E_H := ⟨rfl, rfl, by decide, by decide⟩
theorem ld_E_L : Statement .ld_E_L := ⟨rfl, rfl, by decide, by decide⟩
theorem ld_E_A : Statement .ld_E_A := ⟨rfl, rfl, by decide, by decide⟩
theorem ld_H_B : Statement .ld_H_B := ⟨rfl, rfl, by decide, by decide⟩
theorem ld_H_C : Statement .ld_H_C := ⟨rfl, rfl, by decide, by decide⟩
theorem ld_H_D : Statement .ld_H_D := ⟨rfl, rfl, by decide, by decide⟩
theorem ld_H_E : Statement .ld_H_E := ⟨rfl, rfl, by decide, by decide⟩
theorem ld_H_H : Statement .ld_H_H := ⟨rfl, rfl, by decide, by decide⟩
theorem ld_H_L : Statement .ld_H_L := ⟨rfl, rfl, by decide, by decide⟩
theorem ld_H_A : Statement .ld_H_A := ⟨rfl, rfl, by decide, by decide⟩
theorem ld_L_B : Statement .ld_L_B := ⟨rfl, rfl, by decide, by decide⟩
theorem ld_L_C : Statement .ld_L_C := ⟨rfl, rfl, by decide, by decide⟩
theorem ld_L_D : Statement .ld_L_D := ⟨rfl, rfl, by decide, by decide⟩
theorem ld_L_E : Statement .ld_L_E := ⟨rfl, rfl, by decide, by decide⟩
theorem ld_L_H : Statement .ld_L_H := ⟨rfl, rfl, by decide, by decide⟩
theorem ld_L_L : Statement .ld_L_L := ⟨rfl, rfl, by decide, by decide⟩
theorem ld_L_A : Statement .ld_L_A := ⟨rfl, rfl, by decide, by decide⟩
theorem ld_atHL_A : Statement .ld_atHL_A := ⟨rfl, rfl, by decide, by decide⟩
theorem ld_A_B : Statement .ld_A_B := ⟨rfl, rfl, by decide, by decide⟩
theorem ld_A_C : Statement .ld_A_C := ⟨rfl, rfl, by decide, by decide⟩
theorem ld_A_D : Statement .ld_A_D := ⟨rfl, rfl, by decide, by decide⟩
theorem ld_A_E : Statement .ld_A_E := ⟨rfl, rfl, by decide, by decide⟩
theorem ld_A_H : Statement .ld_A_H := ⟨rfl, rfl, by decide, by decide⟩
theorem ld_A_L : Statement .ld_A_L := ⟨rfl, rfl, by decide, by decide⟩
theorem ld_A_A : Statement .ld_A_A := ⟨rfl, rfl, by decide, by decide⟩
theorem and_B : Statement .and_B := ⟨rfl, rfl, by decide, by decide⟩
theorem and_C : Statement .and_C := ⟨rfl, rfl, by decide, by decide⟩
theorem and_D : Statement .and_D := ⟨rfl, rfl, by decide, by decide⟩
theorem and_E : Statement .and_E := ⟨rfl, rfl, by decide, by decide⟩
theorem and_H : Statement .and_H := ⟨rfl, rfl, by decide, by decide⟩
theorem and_L : Statement .and_L := ⟨rfl, rfl, by decide, by decide⟩
theorem and_A : Statement .and_A := ⟨rfl, rfl, by decide, by decide⟩
theorem xor_B : Statement .xor_B := ⟨rfl, rfl, by decide, by decide⟩
theorem xor_C : Statement .xor_C := ⟨rfl, rfl, by decide, by decide⟩
theorem xor_D : Statement .xor_D := ⟨rfl, rfl, by decide, by decide⟩
theorem xor_E : Statement .xor_E := ⟨rfl, rfl, by decide, by decide⟩
theorem xor_H : Statement .xor_H := ⟨rfl, rfl, by decide, by decide⟩
theorem xor_L : Statement .xor_L := ⟨rfl, rfl, by decide, by decide⟩
theorem xor_A : Statement .xor_A := ⟨rfl, rfl, by decide, by decide⟩
theorem cp_B : Statement .cp_B := ⟨rfl, rfl, by decide, by decide⟩
theorem cp_C : Statement .cp_C := ⟨rfl, rfl, by decide, by decide⟩
theorem cp_D : Statement .cp_D := ⟨rfl, rfl, by decide, by decide⟩
theorem cp_E : Statement .cp_E := ⟨rfl, rfl, by decide, by decide⟩
theorem cp_H : Statement .cp_H := ⟨rfl, rfl, by decide, by decide⟩
theorem cp_L : Statement .cp_L := ⟨rfl, rfl, by decide, by decide⟩
theorem cp_A : Statement .cp_A := ⟨rfl, rfl, by decide, by decide⟩
theorem ret_NZ : Statement .ret_NZ := ⟨rfl, rfl, by decide, by decide⟩
theorem jp_nn (nn : Word) : Statement (.jp_nn nn) := ⟨rfl, rfl, Nat.le_of_ble_eq_true rfl, Nat.le_of_ble_eq_true rfl⟩
theorem ret_Z : Statement .ret_Z := ⟨rfl, rfl, by decide, by decide⟩
theorem ret : Statement .ret := ⟨rfl, rfl, by decide, by decide⟩
theorem call_nn (nn : Word) : Statement (.call_nn nn) := ⟨rfl, rfl, Nat.le_of_ble_eq_true rfl, Nat.le_of_ble_eq_true rfl⟩
theorem ret_NC : Statement .ret_NC := ⟨rfl, rfl, by decide, by decide⟩
theorem ret_C : Statement .ret_C := ⟨rfl, rfl, by decide, by decide⟩
theorem ldh_n_A (n : Byte) : Statement (.ldh_n_A n) := ⟨rfl, rfl, Nat.le_of_ble_eq_true rfl, Nat.le_of_ble_eq_true rfl⟩
theorem and_n (n : Byte) : Statement (.and_n n) := ⟨rfl, rfl, Nat.le_of_ble_eq_true rfl, Nat.le_of_ble_eq_true rfl⟩
theorem xor_n (n : Byte) : Statement (.xor_n n) := ⟨rfl, rfl, Nat.le_of_ble_eq_true rfl, Nat.le_of_ble_eq_true rfl⟩
theorem ldh_A_n (n : Byte) : Statement (.ldh_A_n n) := ⟨rfl, rfl, Nat.le_of_ble_eq_true rfl, Nat.le_of_ble_eq_true rfl⟩
theorem di : Statement .di := ⟨rfl, rfl, by decide, by decide⟩
theorem ei : Statement .ei := ⟨rfl, rfl, by decide, by decide⟩
theorem cp_n (n : Byte) : Statement (.cp_n n) := ⟨rfl, rfl, Nat.le_of_ble_eq_true rfl, Nat.le_of_ble_eq_true rfl⟩

end Sys2Proof.Laws.EncodesIntoImpl
end

