-- ==== Sys2Proof/Tests/Slice0.lean ====
section
/-! SUPPORT. Tests of single steps and operations against the vectors of 95_test_vectors.md (their names stand in the
comments), decoding of words written out from the bit patterns of 30_encoding.md R88 and R22, refusals of the
well-formedness checks, and for every obligation with hypotheses a state and operands that meet them. -/

namespace Sys2Proof.Tests

open Sys2Proof.Machine

/-! ## Helpers -/

/-- The listed bytes of image K (95_test_vectors.md part 2). -/
def kCells : Memory :=
  [(0x100, 0xC3), (0x102, 0x50), (0x103, 0x01), (0x134, 0x54), (0x135, 0x45), (0x136, 0x53), (0x137, 0x54),
    (0x14E, 0x02), (0x14F, 0x54)]

/-- What validating image K stores. -/
def kCart : Cartridge := cartridgeOf ⟨0x8000, kCells⟩

/-- The state after `begin()` with image K loaded. -/
def s0 : State := beginOp (construct defaultConfig (.loaded kCart))

/-- Bytes placed at the PC of a state. -/
def at_ (bytes : List Byte) (s : State) : State := placeBytes s.pc bytes s

/-- One step answers a next state with the given property. -/
def after (s : State) (p : State → Bool) : Bool :=
  match step s with
  | .next t => p t
  | .fault _ => false
  | .refused _ => false

/-- One step faults with the given record. -/
def faults (s : State) (r : Fault) : Bool :=
  match step s with
  | .next _ => false
  | .fault r' => r' == r
  | .refused _ => false

/-- A byte read. -/
def peek (s : State) (a : Word) : Option Byte :=
  match memRead s a with
  | .ok v => some v
  | .error _ => none

/-! ## Decoding, one word per constructor

The first byte of each word is the row's pattern in R88, its register, pair or condition code (R22, R87) put in;
operand bytes follow it (R81). -/

theorem test_decode_nop : ∀ x ∈ [
    ([0b00000000#8], Instr.nop)],
    decode x.1 = .ok (x.2, []) := by decide

theorem test_decode_ld_pair_nn : ∀ x ∈ [
    ([0b00000001#8, 0x34#8, 0x12#8], Instr.ld_BC_nn 0x1234),
    ([0b00010001#8, 0x34#8, 0x12#8], Instr.ld_DE_nn 0x1234),
    ([0b00100001#8, 0x34#8, 0x12#8], Instr.ld_HL_nn 0x1234)],
    decode x.1 = .ok (x.2, []) := by decide

theorem test_decode_ld_atPair_A : ∀ x ∈ [
    ([0b00000010#8], Instr.ld_atBC_A),
    ([0b00010010#8], Instr.ld_atDE_A)],
    decode x.1 = .ok (x.2, []) := by decide

theorem test_decode_dec_r : ∀ x ∈ [
    ([0b00000101#8], Instr.dec_B),
    ([0b00001101#8], Instr.dec_C),
    ([0b00010101#8], Instr.dec_D),
    ([0b00011101#8], Instr.dec_E),
    ([0b00100101#8], Instr.dec_H),
    ([0b00101101#8], Instr.dec_L),
    ([0b00111101#8], Instr.dec_A)],
    decode x.1 = .ok (x.2, []) := by decide

theorem test_decode_ld_r_n : ∀ x ∈ [
    ([0b00000110#8, 0x9C#8], Instr.ld_B_n 0x9C),
    ([0b00001110#8, 0x9C#8], Instr.ld_C_n 0x9C),
    ([0b00010110#8, 0x9C#8], Instr.ld_D_n 0x9C),
    ([0b00011110#8, 0x9C#8], Instr.ld_E_n 0x9C),
    ([0b00100110#8, 0x9C#8], Instr.ld_H_n 0x9C),
    ([0b00101110#8, 0x9C#8], Instr.ld_L_n 0x9C),
    ([0b00111110#8, 0x9C#8], Instr.ld_A_n 0x9C)],
    decode x.1 = .ok (x.2, []) := by decide

theorem test_decode_dec_rr : ∀ x ∈ [
    ([0b00001011#8], Instr.dec_BC),
    ([0b00011011#8], Instr.dec_DE),
    ([0b00101011#8], Instr.dec_HL)],
    decode x.1 = .ok (x.2, []) := by decide

theorem test_decode_jr : ∀ x ∈ [
    ([0b00100000#8, 0x9C#8], Instr.jr_NZ_e 0x9C),
    ([0b00101000#8, 0x9C#8], Instr.jr_Z_e 0x9C),
    ([0b00110000#8, 0x9C#8], Instr.jr_NC_e 0x9C),
    ([0b00111000#8, 0x9C#8], Instr.jr_C_e 0x9C)],
    decode x.1 = .ok (x.2, []) := by decide

theorem test_decode_ld_atHLdec_A : ∀ x ∈ [
    ([0b00110010#8], Instr.ld_atHLdec_A)],
    decode x.1 = .ok (x.2, []) := by decide

theorem test_decode_ld_r_r_1 : ∀ x ∈ [
    ([0b01000000#8], Instr.ld_B_B),
    ([0b01000001#8], Instr.ld_B_C),
    ([0b01000010#8], Instr.ld_B_D),
    ([0b01000011#8], Instr.ld_B_E),
    ([0b01000100#8], Instr.ld_B_H),
    ([0b01000101#8], Instr.ld_B_L),
    ([0b01000111#8], Instr.ld_B_A)],
    decode x.1 = .ok (x.2, []) := by decide

theorem test_decode_ld_r_r_2 : ∀ x ∈ [
    ([0b01001000#8], Instr.ld_C_B),
    ([0b01001001#8], Instr.ld_C_C),
    ([0b01001010#8], Instr.ld_C_D),
    ([0b01001011#8], Instr.ld_C_E),
    ([0b01001100#8], Instr.ld_C_H),
    ([0b01001101#8], Instr.ld_C_L),
    ([0b01001111#8], Instr.ld_C_A)],
    decode x.1 = .ok (x.2, []) := by decide

theorem test_decode_ld_r_r_3 : ∀ x ∈ [
    ([0b01010000#8], Instr.ld_D_B),
    ([0b01010001#8], Instr.ld_D_C),
    ([0b01010010#8], Instr.ld_D_D),
    ([0b01010011#8], Instr.ld_D_E),
    ([0b01010100#8], Instr.ld_D_H),
    ([0b01010101#8], Instr.ld_D_L),
    ([0b01010111#8], Instr.ld_D_A)],
    decode x.1 = .ok (x.2, []) := by decide

theorem test_decode_ld_r_r_4 : ∀ x ∈ [
    ([0b01011000#8], Instr.ld_E_B),
    ([0b01011001#8], Instr.ld_E_C),
    ([0b01011010#8], Instr.ld_E_D),
    ([0b01011011#8], Instr.ld_E_E),
    ([0b01011100#8], Instr.ld_E_H),
    ([0b01011101#8], Instr.ld_E_L),
    ([0b01011111#8], Instr.ld_E_A)],
    decode x.1 = .ok (x.2, []) := by decide

theorem test_decode_ld_r_r_5 : ∀ x ∈ [
    ([0b01100000#8], Instr.ld_H_B),
    ([0b01100001#8], Instr.ld_H_C),
    ([0b01100010#8], Instr.ld_H_D),
    ([0b01100011#8], Instr.ld_H_E),
    ([0b01100100#8], Instr.ld_H_H),
    ([0b01100101#8], Instr.ld_H_L),
    ([0b01100111#8], Instr.ld_H_A)],
    decode x.1 = .ok (x.2, []) := by decide

theorem test_decode_ld_r_r_6 : ∀ x ∈ [
    ([0b01101000#8], Instr.ld_L_B),
    ([0b01101001#8], Instr.ld_L_C),
    ([0b01101010#8], Instr.ld_L_D),
    ([0b01101011#8], Instr.ld_L_E),
    ([0b01101100#8], Instr.ld_L_H),
    ([0b01101101#8], Instr.ld_L_L),
    ([0b01101111#8], Instr.ld_L_A)],
    decode x.1 = .ok (x.2, []) := by decide

theorem test_decode_ld_r_r_7 : ∀ x ∈ [
    ([0b01111000#8], Instr.ld_A_B),
    ([0b01111001#8], Instr.ld_A_C),
    ([0b01111010#8], Instr.ld_A_D),
    ([0b01111011#8], Instr.ld_A_E),
    ([0b01111100#8], Instr.ld_A_H),
    ([0b01111101#8], Instr.ld_A_L),
    ([0b01111111#8], Instr.ld_A_A)],
    decode x.1 = .ok (x.2, []) := by decide

theorem test_decode_ld_hl_a : ∀ x ∈ [
    ([0b01110111#8], Instr.ld_atHL_A)],
    decode x.1 = .ok (x.2, []) := by decide

theorem test_decode_and_r : ∀ x ∈ [
    ([0b10100000#8], Instr.and_B),
    ([0b10100001#8], Instr.and_C),
    ([0b10100010#8], Instr.and_D),
    ([0b10100011#8], Instr.and_E),
    ([0b10100100#8], Instr.and_H),
    ([0b10100101#8], Instr.and_L),
    ([0b10100111#8], Instr.and_A)],
    decode x.1 = .ok (x.2, []) := by decide

theorem test_decode_xor_r : ∀ x ∈ [
    ([0b10101000#8], Instr.xor_B),
    ([0b10101001#8], Instr.xor_C),
    ([0b10101010#8], Instr.xor_D),
    ([0b10101011#8], Instr.xor_E),
    ([0b10101100#8], Instr.xor_H),
    ([0b10101101#8], Instr.xor_L),
    ([0b10101111#8], Instr.xor_A)],
    decode x.1 = .ok (x.2, []) := by decide

theorem test_decode_cp_r : ∀ x ∈ [
    ([0b10111000#8], Instr.cp_B),
    ([0b10111001#8], Instr.cp_C),
    ([0b10111010#8], Instr.cp_D),
    ([0b10111011#8], Instr.cp_E),
    ([0b10111100#8], Instr.cp_H),
    ([0b10111101#8], Instr.cp_L),
    ([0b10111111#8], Instr.cp_A)],
    decode x.1 = .ok (x.2, []) := by decide

theorem test_decode_ret_cc : ∀ x ∈ [
    ([0b11000000#8], Instr.ret_NZ),
    ([0b11001000#8], Instr.ret_Z),
    ([0b11010000#8], Instr.ret_NC),
    ([0b11011000#8], Instr.ret_C)],
    decode x.1 = .ok (x.2, []) := by decide

theorem test_decode_jp_nn : ∀ x ∈ [
    ([0b11000011#8, 0x34#8, 0x12#8], Instr.jp_nn 0x1234)],
    decode x.1 = .ok (x.2, []) := by decide

theorem test_decode_ret : ∀ x ∈ [
    ([0b11001001#8], Instr.ret)],
    decode x.1 = .ok (x.2, []) := by decide

theorem test_decode_call_nn : ∀ x ∈ [
    ([0b11001101#8, 0x34#8, 0x12#8], Instr.call_nn 0x1234)],
    decode x.1 = .ok (x.2, []) := by decide

theorem test_decode_ldh_n_a : ∀ x ∈ [
    ([0b11100000#8, 0x9C#8], Instr.ldh_n_A 0x9C)],
    decode x.1 = .ok (x.2, []) := by decide

theorem test_decode_and_n : ∀ x ∈ [
    ([0b11100110#8, 0x9C#8], Instr.and_n 0x9C)],
    decode x.1 = .ok (x.2, []) := by decide

theorem test_decode_xor_n : ∀ x ∈ [
    ([0b11101110#8, 0x9C#8], Instr.xor_n 0x9C)],
    decode x.1 = .ok (x.2, []) := by decide

theorem test_decode_ldh_a_n : ∀ x ∈ [
    ([0b11110000#8, 0x9C#8], Instr.ldh_A_n 0x9C)],
    decode x.1 = .ok (x.2, []) := by decide

theorem test_decode_di : ∀ x ∈ [
    ([0b11110011#8], Instr.di)],
    decode x.1 = .ok (x.2, []) := by decide

theorem test_decode_ei : ∀ x ∈ [
    ([0b11111011#8], Instr.ei)],
    decode x.1 = .ok (x.2, []) := by decide

theorem test_decode_cp_n : ∀ x ∈ [
    ([0b11111110#8, 0x9C#8], Instr.cp_n 0x9C)],
    decode x.1 = .ok (x.2, []) := by decide
/-- Bytes without a row are refused by name (R90, R91; vectors E7 to E10), and so is a missing operand. -/
theorem test_decode_refuses :
    decode [0xCB, 0x37] = .error (.unimplemented 0xCB) ∧ decode [0x31, 0xFF, 0xCF] = .error (.unimplemented 0x31) ∧
    decode [0x18, 0x05] = .error (.unimplemented 0x18) ∧ decode [0xFF] = .error (.unimplemented 0xFF) ∧
    decode [0x76] = .error (.unimplemented 0x76) ∧ decode [0x3E] = .error (.truncated 0x3E) ∧
    decode [0xC3, 0x00] = .error (.truncated 0xC3) ∧ decode [] = .error .empty := by decide

/-- A word numbered as the opcode table numbers it, its missing operand bits zero. -/
theorem test_decodeTableWord :
    decodeTableWord 8 0x21 = some (.ld_HL_nn 0) ∧ decodeTableWord 24 0xC00321 = some (.ld_HL_nn 0xC003) ∧
    decodeTableWord 8 0x76 = none := by decide

/-! ## Well-formedness: one ill-formed term for each check -/

theorem test_default_wellFormed : defaultConfig.wellFormed = true := by decide

theorem test_wramSize_zero_refused : { defaultConfig with wramSize := 0 }.wellFormed = false := by decide

theorem test_wramSize_large_refused : { defaultConfig with wramSize := 0x3F01 }.wellFormed = false := by decide

theorem test_wramSize_bounds_accepted : { defaultConfig with wramSize := 1 }.wellFormed = true ∧
    { defaultConfig with wramSize := 0x3F00 }.wellFormed = true := by decide

theorem test_impl_extra_byte_refused : { defaultConfig with impl := [0x00, 0x76] }.wellFormed = false := by decide

theorem test_cost_zero_refused :
    { defaultConfig with cost := { defaultCost with cpN := 0 } }.wellFormed = false := by decide

theorem test_jr_costs_out_of_order_refused :
    { defaultConfig with cost := { defaultCost with jrTaken := 2 } }.wellFormed = false := by decide

theorem test_instr_outside_impl_refused :
    Instr.wellFormed { defaultConfig with impl := [0x00] } .ei = false ∧
    Instr.wellFormed defaultConfig .ei = true := by decide

/-! ## Control transfer (vectors T1 to T21) -/

/-- T1, E2. -/
theorem test_jp : after (at_ [0xC3, 0x34, 0x12] s0) (fun t => (t.pc, t.pend, t.sp) == (0x1234, 3, 0xDFFF)) := by decide

/-- T2, T3, T4, T5, T6. -/
theorem test_jr_z :
    after (at_ [0x20, 0xFE] s0) (fun t => (t.pc, t.pend) == (0x0150, 2)) ∧
    after (at_ [0x20, 0x05] { s0 with f := 0x80 }) (fun t => (t.pc, t.pend) == (0x0152, 1)) ∧
    after (at_ [0x28, 0x05] { s0 with f := 0x80 }) (fun t => (t.pc, t.pend) == (0x0157, 2)) ∧
    after (at_ [0x28, 0x80] { s0 with f := 0x80 }) (fun t => t.pc == 0x00D2) ∧
    after (at_ [0x28, 0x7F] { s0 with f := 0x80 }) (fun t => t.pc == 0x01D1) := by decide

/-- T7, T8, T9, T10. -/
theorem test_jr_c :
    after (at_ [0x30, 0x10] s0) (fun t => (t.pc, t.pend) == (0x0162, 2)) ∧
    after (at_ [0x38, 0x10] s0) (fun t => (t.pc, t.pend) == (0x0152, 1)) ∧
    after (at_ [0x30, 0x80] { s0 with pc := 0x0001 }) (fun t => t.pc == 0xFF83) ∧
    after (at_ [0x20, 0xFE] { s0 with pc := 0xDFFE }) (fun t => t.pc == 0xDFFE) := by decide

/-- T11, T12, T13. -/
theorem test_call :
    after (at_ [0xCD, 0x00, 0x02] s0) (fun t => (t.pc, t.sp, t.pend, peek t 0xDFFE, peek t 0xDFFD) ==
      (0x0200, 0xDFFD, 5, some 0x01, some 0x53)) ∧
    after (at_ [0xCD, 0x00, 0x02] { s0 with sp := 0xC001 }) (fun t => (t.pc, t.sp, t.wram) ==
      (0x0200, 0xBFFF, [(0, 0x01)])) ∧
    after (at_ [0xCD, 0x00, 0x02] { s0 with sp := 0x0000 }) (fun t => (t.pc, t.sp, t.wram) ==
      (0x0200, 0xFFFE, [])) := by decide

/-- The stack of T14, T18, T19. -/
def stacked : State := { s0 with sp := 0xDFFD, wram := [(0x1FFD, 0x53), (0x1FFE, 0x01)] }

/-- T14, T15, T16. -/
theorem test_ret :
    after (at_ [0xC9] stacked) (fun t => (t.pc, t.sp, t.pend) == (0x0153, 0xDFFF, 3)) ∧
    after (at_ [0xC9] { s0 with sp := 0x0102 }) (fun t => (t.pc, t.sp) == (0x0150, 0x0104)) ∧
    faults (at_ [0xC9] s0) (.unmappedAddress 0xE000) := by decide

/-- T17, T18, T19, T20. -/
theorem test_ret_cc :
    after (at_ [0xC0] { stacked with f := 0x80 }) (fun t => (t.pc, t.sp, t.pend) == (0x0151, 0xDFFD, 1)) ∧
    after (at_ [0xC8] { stacked with f := 0x80 }) (fun t => (t.pc, t.sp, t.pend) == (0x0153, 0xDFFF, 4)) ∧
    after (at_ [0xD0] stacked) (fun t => (t.pc, t.sp, t.pend) == (0x0153, 0xDFFF, 4)) ∧
    after (at_ [0xD8] stacked) (fun t => (t.pc, t.sp, t.pend) == (0x0151, 0xDFFD, 1)) := by decide

/-- T21, L5: an operand byte at an unmapped address. -/
theorem test_operand_faults :
    faults (at_ [0xC3, 0x00] { s0 with pc := 0x7FFE }) (.unmappedAddress 0x8000) ∧
    faults (at_ [0x3E] { s0 with pc := 0xDFFF }) (.unmappedAddress 0xE000) := by decide

/-! ## Loads (vectors L1 to L20) -/

/-- L1, L2, L3. -/
theorem test_ld_r_n :
    after (at_ [0x3E, 0x05] s0) (fun t => (t.a, t.f, t.pc, t.pend) == (0x05, 0x00, 0x0152, 1)) ∧
    after (at_ [0x06, 0x00] s0) (fun t => (t.b, t.f) == (0x00, 0x80)) ∧
    after (at_ [0x2E, 0xFF] { s0 with f := 0xC0 }) (fun t => (t.l, t.f) == (0xFF, 0x40)) := by decide

/-- L6, L7, L8. -/
theorem test_ld_rr_nn :
    after (at_ [0x01, 0x34, 0x12] s0) (fun t => (t.b, t.c, t.pc, t.pend) == (0x12, 0x34, 0x0153, 2)) ∧
    after (at_ [0x11, 0x10, 0xC0] s0) (fun t => (t.d, t.e) == (0xC0, 0x10)) ∧
    after (at_ [0x21, 0xFF, 0xDF] { s0 with f := 0x80 }) (fun t => (t.h, t.l, t.f) == (0xDF, 0xFF, 0x80)) := by decide

/-- L9, L10, L11. -/
theorem test_ld_r_r :
    after (at_ [0x47] { s0 with a := 0x0C }) (fun t => (t.a, t.b, t.pc, t.pend) == (0x0C, 0x0C, 0x0151, 0)) ∧
    after (at_ [0x65] { s0 with l := 0x77 }) (fun t => (t.h, t.l) == (0x77, 0x77)) ∧
    after (at_ [0x7F] { s0 with a := 0x09 }) (fun t => t == { at_ [0x7F] s0 with a := 0x09, pc := 0x0151 }) := by decide

/-- L12, L13, L14. -/
theorem test_ld_at_rr_A :
    after (at_ [0x02] { s0 with a := 0xAB, b := 0xC1 }) (fun t => (peek t 0xC100, t.pend) == (some 0xAB, 1)) ∧
    after (at_ [0x12] { s0 with a := 0xAB, d := 0x01, e := 0x50 }) (fun t =>
      (peek t 0x0150, t.wram) == (some 0x12, [])) ∧
    after (at_ [0x77] { s0 with a := 0x5A, h := 0xC0 }) (fun t =>
      (peek t 0xC000, t.h, t.l) == (some 0x5A, 0xC0, 0x00)) := by decide

/-- L15, L16, L17, L18. -/
theorem test_ld_at_HL_dec_A :
    after (at_ [0x32] { s0 with a := 0x5A, h := 0xC0, l := 0x03 }) (fun t =>
      (peek t 0xC003, t.h, t.l, t.f, t.pend) == (some 0x5A, 0xC0, 0x02, 0x40, 1)) ∧
    after (at_ [0x32] { s0 with a := 0x5A, l := 0x01 }) (fun t => (t.wram, t.h, t.l, t.f) == ([], 0, 0, 0xC0)) ∧
    after (at_ [0x32] { s0 with a := 0x5A, f := 0x80 }) (fun t =>
      (t.wram, t.h, t.l, t.f) == ([], 0xFF, 0xFF, 0x40)) ∧
    after (at_ [0x32] { s0 with a := 0x5A, h := 0xC0 }) (fun t =>
      (peek t 0xC000, t.h, t.l, t.f) == (some 0x5A, 0xBF, 0xFF, 0x40)) := by decide

/-- L19. -/
theorem test_ldh_n_A :
    after (at_ [0xE0, 0x40] { s0 with a := 0x80 }) (fun t =>
      t == { at_ [0xE0, 0x40] s0 with a := 0x80, pc := 0x0152, pend := 2 }) := by decide

/-- L20. -/
theorem test_ldh_A_n : faults (at_ [0xF0, 0x44] { s0 with a := 0x80 }) (.unmappedAddress 0xFF44) := by decide

/-! ## Arithmetic and logic (vectors A1 to A20) -/

/-- A1, A2, A3. -/
theorem test_dec_r :
    after (at_ [0x05] { s0 with b := 0x01 }) (fun t => (t.b, t.f, t.pend) == (0x00, 0xC0, 0)) ∧
    after (at_ [0x05] s0) (fun t => (t.b, t.f) == (0xFF, 0x40)) ∧
    after (at_ [0x3D] { s0 with a := 0x10, f := 0x30 }) (fun t => (t.a, t.f) == (0x0F, 0x70)) := by decide

/-- A4, A5, A6, A7. -/
theorem test_dec_rr :
    after (at_ [0x0B] { s0 with f := 0x80 }) (fun t => (t.b, t.c, t.f, t.pend) == (0xFF, 0xFF, 0x80, 1)) ∧
    after (at_ [0x1B] { s0 with d := 0xC0, e := 0x10 }) (fun t => (t.d, t.e) == (0xC0, 0x0F)) ∧
    after (at_ [0x2B] { s0 with h := 0xC0 }) (fun t => (t.h, t.l) == (0xBF, 0xFF)) ∧
    after (at_ [0x2B] { s0 with l := 0x01 }) (fun t => (t.h, t.l, t.f) == (0x00, 0x00, 0x00)) := by decide

/-- A8, A9. -/
theorem test_xor_r :
    after (at_ [0xAF] { s0 with a := 0x05 }) (fun t => (t.a, t.f, t.pend) == (0x00, 0x80, 0)) ∧
    after (at_ [0xA8] { s0 with a := 0x0F, b := 0x3C, f := 0x70 }) (fun t => (t.a, t.f) == (0x33, 0x70)) := by decide

/-- A10, A11. -/
theorem test_xor_n :
    after (at_ [0xEE, 0xFF] { s0 with a := 0xFF }) (fun t => (t.a, t.f, t.pend) == (0x00, 0x80, 1)) ∧
    after (at_ [0xEE, 0x00] s0) (fun t => (t.a, t.f) == (0x00, 0x80)) := by decide

/-- A12, A13. -/
theorem test_and_r :
    after (at_ [0xA0] { s0 with a := 0xF0, b := 0x0F, f := 0x50 }) (fun t => (t.a, t.f, t.pend) == (0x00, 0xA0, 0)) ∧
    after (at_ [0xA7] { s0 with a := 0x81 }) (fun t => (t.a, t.f) == (0x81, 0x20)) := by decide

/-- A14, A15. -/
theorem test_and_n :
    after (at_ [0xE6, 0x0F] { s0 with a := 0x3C }) (fun t => (t.a, t.f, t.pend) == (0x0C, 0x20, 1)) ∧
    after (at_ [0xE6, 0x00] { s0 with a := 0xFF, f := 0xD0 }) (fun t => (t.a, t.f) == (0x00, 0xA0)) := by decide

/-- A16, A17, A18. -/
theorem test_cp_r :
    after (at_ [0xB8] { s0 with a := 0x0C, b := 0x0C }) (fun t => (t.a, t.f, t.pend) == (0x0C, 0x80, 0)) ∧
    after (at_ [0xB8] { s0 with a := 0x0C, b := 0x0D, f := 0x80 }) (fun t => (t.a, t.f) == (0x0C, 0x00)) ∧
    after (at_ [0xBF] { s0 with a := 0x33 }) (fun t => t.f == 0x80) := by decide

/-- A19, A20. -/
theorem test_cp_n :
    after (at_ [0xFE, 0x94] { s0 with a := 0x94 }) (fun t => (t.a, t.f, t.pend) == (0x94, 0x80, 1)) ∧
    after (at_ [0xFE, 0x94] { s0 with a := 0x93, f := 0xE0 }) (fun t => (t.a, t.f) == (0x93, 0x60)) := by decide

/-! ## System and engine (vectors S1 to S3, E1 to E11) -/

/-- S1, S2, S3. -/
theorem test_system :
    after (at_ [0x00] s0) (fun t => t == { at_ [0x00] s0 with pc := 0x0151 }) ∧
    after (at_ [0xF3] { s0 with ime := true }) (fun t => (t.ime, t.pc) == (false, 0x0151)) ∧
    after (at_ [0xFB] s0) (fun t => (t.ime, t.pc) == (true, 0x0151)) := by decide

/-- E1, E5, E6, E11. -/
theorem test_engine :
    after { s0 with pend := 3 } (fun t => t == { s0 with pend := 2 }) ∧
    faults { s0 with pc := 0x8000 } (.unmappedAddress 0x8000) ∧
    after { s0 with flt := some (.unmappedAddress 0x8000) } (fun t =>
      t == { s0 with flt := some (.unmappedAddress 0x8000) }) ∧
    after (at_ [0x00] { s0 with pc := 0x7FFF }) (fun t => t.pc == 0x8000) := by decide

/-- E7, E8, E9, E10, V4. -/
theorem test_unimplemented :
    faults (at_ [0xCB, 0x37] s0) (.unimplementedOpcode 0xCB 0x0150) ∧
    faults (at_ [0x31, 0xFF, 0xCF] s0) (.unimplementedOpcode 0x31 0x0150) ∧
    faults (at_ [0x18, 0x05] s0) (.unimplementedOpcode 0x18 0x0150) ∧
    faults (at_ [0xFF] s0) (.unimplementedOpcode 0xFF 0x0150) ∧
    faults (at_ [0x76] s0) (.unimplementedOpcode 0x76 0x0150) := by decide

/-- A placed instruction is the one that the first step after reset runs (log 9), and the next PC is past it. -/
theorem test_withFetchWord :
    after (State.reset.withFetchWord 16 0x053E) (fun t => (t.a, t.pc, t.pend) == (0x05, 0x0002, 1)) ∧
    after (State.reset.withFetchWord 24 0x1234C3) (fun t => t.pc == 0x1234) := by decide

/-! ## Memory (vectors M1 to M16) -/

/-- M3, M4, M5, M7, M8, M11 and the boundaries of ROM. -/
theorem test_memRead :
    peek (at_ [0x9C] { s0 with pc := 0x7FFF }) 0x7FFF = some 0x9C ∧ peek (at_ [0x9C] { s0 with pc := 0 }) 0 = some 0x9C ∧
    memRead s0 0x8000 = .error (.unmappedAddress 0x8000) ∧ memRead s0 0xBFFF = .error (.unmappedAddress 0xBFFF) ∧
    memRead s0 0xC000 = .ok 0 ∧ memRead s0 0xE000 = .error (.unmappedAddress 0xE000) ∧
    memRead s0 0xFF44 = .error (.unmappedAddress 0xFF44) ∧
    memRead16 s0 0x7FFF = .error (.unmappedAddress 0x8000) := by decide

/-- M6, M9, M10, M12. -/
theorem test_memWrite :
    memRead (memWrite 0xDFFF 0xAB s0) 0xDFFF = .ok 0xAB ∧ memWrite 0x0150 0xAB s0 = s0 ∧
    memWrite 0xFF40 0x80 (memWrite 0x9000 1 (memWrite 0xE000 1 s0)) = s0 ∧
    memRead16 { s0 with wram := [(0, 0x34), (1, 0x12)] } 0xC000 = .ok 0x1234 := by decide

/-- M13, M14, M15, M16. -/
theorem test_stack :
    ((push16 0x0153 s0).sp, (push16 0x0153 s0).wram) = (0xDFFD, [(0x1FFD, 0x53), (0x1FFE, 0x01)]) ∧
    (pop16 (push16 0x0153 s0)).map (fun x => (x.1, x.2.sp)) = .ok (0x0153, 0xDFFF) ∧
    ((push16 0xABCD { s0 with sp := 0xC001 }).sp, (push16 0xABCD { s0 with sp := 0xC001 }).wram) =
      (0xBFFF, [(0, 0xAB)]) ∧
    (pop16 s0).map (fun x => x.1) = .error (.unmappedAddress 0xE000) := by decide

/-- Writing 0x00 removes the entry, so that equal storage is equal data. -/
theorem test_canonical :
    Memory.write (Memory.write [] 5 0xAB) 5 0 = [] ∧
    Memory.write (Memory.write [] 5 0xAB) 3 1 = Memory.write (Memory.write [] 3 1) 5 0xAB := by decide

/-! ## Cartridge validator (vectors K1 to K11, V5) -/

/-- The checksum of an image of ROM_LEN bytes from its listed bytes. -/
theorem checksum_cells {m : Memory} {v : Word} (h : m.wf ∧ (∀ x ∈ m, x.1 < 0x8000) ∧ cellSum m = v) :
    checksum ⟨0x8000, m⟩ = v :=
  (checksumUpTo_eq_cellSum h.1 h.2.1).trans h.2.2

/-- K1. -/
theorem test_K1 : validate ⟨0x8000, kCells⟩ = .ok kCart ∧ kCart.title = [0x54, 0x45, 0x53, 0x54] ∧
    kCart.start = 0x0150 ∧ kCart.csumDecl = 0x0254 := by
  have h : checksum ⟨0x8000, kCells⟩ = 0x0254 := checksum_cells (by decide)
  refine ⟨validate_ok_iff.mpr ⟨by decide, by decide, ?_, rfl⟩, by decide, by decide, by decide⟩
  simp only [checksumOk, h]
  decide

/-- K2, K3, K4, K5. -/
theorem test_K2_to_K5 :
    validate ⟨0x8000, kCells.write 0x100 0⟩ = .error .invalidHeaderSignature ∧
    validate ⟨0x8000, (kCells.write 0x100 0).write 0x101 0xC3⟩ = .error .invalidHeaderSignature ∧
    validate ⟨0x8000, kCells.write 0x147 1⟩ = .error .unsupportedCartridgeLayout ∧
    validate ⟨0x8000, (kCells.write 0x148 1).write 0x14F 0x55⟩ = .error .unsupportedCartridgeLayout := by decide

/-- K6, K8, K9. -/
theorem test_K6_K8_K9 :
    validate ⟨0x8000, kCells.write 0x150 0x76⟩ = .error .checksumMismatch ∧
    validate ⟨0x8000, kCells.write 0x14F 0x55⟩ = .error .checksumMismatch ∧
    validate ⟨0x8000, (kCells.write 0x14E 0x54).write 0x14F 0x02⟩ = .error .checksumMismatch := by
  have h1 : checksum ⟨0x8000, kCells.write 0x150 0x76⟩ = 0x02CA := checksum_cells (by decide)
  have h2 : checksum ⟨0x8000, kCells.write 0x14F 0x55⟩ = 0x0254 := checksum_cells (by decide)
  have h3 : checksum ⟨0x8000, (kCells.write 0x14E 0x54).write 0x14F 0x02⟩ = 0x0254 := checksum_cells (by decide)
  simp only [validate, checksumOk, h1, h2, h3]
  decide

/-- K7, K10, K11. -/
theorem test_K7_K10_K11 :
    checksumOk ⟨0x8000, (kCells.write 0x150 0x76).write 0x14F 0xCA⟩ = true ∧
    imageTitle ⟨0x8000, (List.range 16).foldl (fun m i => m.write (0x134 + i) 0x41) kCells⟩ =
      List.replicate 16 0x41 ∧
    imageTitle ⟨0x8000, kCells.write 0x134 0⟩ = [] := by
  have h : checksum ⟨0x8000, (kCells.write 0x150 0x76).write 0x14F 0xCA⟩ = 0x02CA := checksum_cells (by decide)
  refine ⟨?_, by decide, by decide⟩
  simp only [checksumOk, h]
  decide

/-- The read port (V5 and the last lines of the validator's vectors). -/
theorem test_read_port :
    cartRead8 (.loaded kCart) 0x0100 = .ok 0xC3 ∧ cartRead8 (.loaded kCart) 0x10100 = .ok 0xC3 ∧
    cartRead16 (.loaded kCart) 0x0102 = .ok 0x0150 ∧ cartRead16 (.loaded kCart) 0x0100 = .ok 0x00C3 ∧
    startVector (.loaded kCart) = .ok 0x0150 ∧ cartRead8 .unloaded 0x0100 = .error .cartridgeNotLoaded ∧
    startVector .failed = .error .cartridgeNotLoaded := by decide

/-! ## Host operations -/

/-- V6: `begin` with image K. -/
theorem test_begin : (s0.pc, s0.pend, s0.sp, s0.flt) = (0x0150, 0, 0xDFFF, none) := by decide

/-- S4, V7: `reset` keeps Working Memory and PEND. -/
theorem test_reset :
    resetOp { stacked with ime := true, a := 1, f := 0x80, pend := 3 } =
      { stacked with pc := 0, sp := 0xDFFF, pend := 3 } := by decide

/-- R102, R109, R223, R240: the operations that are refused. -/
theorem test_host_refusals :
    hostStep (.validate [0xC3]) (Session.start defaultConfig) = .refused .imageLength ∧
    hostStep (.validate []) (.noCore defaultConfig .failed) = .refused .alreadyValidated ∧
    hostStep .construct (.core s0 0) = .refused .coreExists ∧
    hostStep .tick (.noCore defaultConfig .unloaded) = .refused .noCore ∧
    hostStep .tick (.core State.reset 0) = .refused (.engine .tickBeforeBegin) := by decide

/-- Codes of the errors (R201), the view of Working Memory (R46), and the trace port (R135). -/
theorem test_view :
    Fault.code (.unimplementedOpcode 0x76 0x0150) = 6 ∧ LoadError.checksumMismatch.code = 3 ∧
    viewWram stacked 0x1FFD = some 0x53 ∧ viewWram stacked 0x2000 = none ∧ (view s0).pc = 0x0150 ∧
    titleOf (.loaded kCart) = .ok [0x54, 0x45, 0x53, 0x54] ∧
    tracePort (at_ [0xFB] { s0 with cfg := { defaultConfig with trace := true } }) = some (0x0150, 0xFB) := by decide

/-! ## Witnesses: a state and operands that meet the hypotheses of each obligation

A clause's hypotheses stand together in one conjunct, at concrete values; the obligations not listed have none. -/

/-- The next state of a step, or the state itself. -/
def next (s : State) : State :=
  match step s with
  | .next t => t
  | .fault _ => s
  | .refused _ => s

theorem step_of_after {s : State} (h : after s (fun _ => true)) : step s = .next (next s) := by
  unfold after at h
  unfold next
  split at h <;> simp_all

theorem fault_of_faults {s : State} {r : Fault} (h : faults s r) : step s = .fault r := by
  unfold faults at h
  split at h <;> simp_all

/-- `LD A,5` at 0x0150. -/
def sLd : State := at_ [0x3E, 0x05] s0

/-- `LD A,(HL)` of a Game Boy, a byte without a handler, at 0x0150. -/
def sBad : State := at_ [0x7E] s0

theorem witness_EncodeOfDecode : decode [0x3E, 0x05, 0xAF] = .ok (.ld_A_n 0x05, [0xAF]) := by decide

theorem witness_OpcodesAreExactlyImpl : (0x76 : Byte) ∉ defaultImpl := by decide

theorem witness_StepRunsDecodedInstruction : sLd.ready ∧ readBytes sLd sLd.pc (Instr.length (.ld_A_n 0x05)) =
    .ok [0x3E, 0x05] ∧ decode [0x3E, 0x05] = .ok (.ld_A_n 0x05, []) ∧
    Instr.wellFormed sLd.cfg (.ld_A_n 0x05) = true := by decide

theorem witness_UnimplementedOpcodeStops :
    sBad.ready ∧ memRead sBad sBad.pc = .ok 0x7E ∧ sBad.cfg.impl.contains 0x7E = false := by decide

/-- An opcode fetch beyond Working Memory; `JP nn` at its last byte and at its last two. -/
theorem witness_FetchFaultsInOrder :
    ({ s0 with pc := 0x8000 }.ready ∧ memRead { s0 with pc := 0x8000 } 0x8000 = .error (.unmappedAddress 0x8000)) ∧
    (let s := at_ [0xC3] { s0 with pc := 0xDFFF }
     s.ready ∧ memRead s s.pc = .ok (Instr.jp_nn 0).opcode ∧ (Instr.jp_nn 0).wellFormed s.cfg = true ∧
       2 ≤ (Instr.jp_nn 0).length ∧ memRead s (s.pc + 1) = .error (.unmappedAddress 0xE000)) ∧
    (let s := at_ [0xC3, 0x12] { s0 with pc := 0xDFFE }
     s.ready ∧ memRead s s.pc = .ok (Instr.jp_nn 0).opcode ∧ (Instr.jp_nn 0).wellFormed s.cfg = true ∧
       (Instr.jp_nn 0).length = 3 ∧ memRead s (s.pc + 1) = .ok 0x12 ∧
       memRead s (s.pc + 2) = .error (.unmappedAddress 0xE000)) := by decide

/-- One step for each fault. -/
theorem witness_FaultRecordsAreAccurate :
    step { s0 with pc := 0xE000 } = .fault (.unmappedAddress 0xE000) ∧
    step sBad = .fault (.unimplementedOpcode 0x7E 0x0150) ∧
    step { s0 with cv := .unloaded } = .fault .cartridgeNotLoaded :=
  ⟨fault_of_faults (by decide), fault_of_faults (by decide), fault_of_faults (by decide)⟩

theorem witness_IdleTickOnlyCountsDown :
    { s0 with pend := 1 }.begun = true ∧ { s0 with pend := 1 }.flt = none ∧ 0 < { s0 with pend := 1 }.pend := by decide

theorem witness_LatchedFaultStopsEngine :
    (latchFault .cartridgeNotLoaded 0 s0).begun = true ∧
    (latchFault .cartridgeNotLoaded 0 s0).flt = some .cartridgeNotLoaded := ⟨by decide, rfl⟩

theorem witness_TickBeforeBeginIsRefused : State.reset.begun = false := by decide

theorem witness_CostOccupiesThatManyTicks :
    exec (.jr_NZ_e 0xFE) s0 = .next { s0 with pc := 0x014E, pend := 2 } ∧
    (sLd.ready ∧ memRead sLd sLd.pc = .ok (Instr.ld_A_n 0x05).opcode ∧ step sLd = .next (next sLd) ∧
      sLd.cfg.cost.positive = true) :=
  ⟨rfl, by decide, by decide, step_of_after (by decide), by decide⟩

/-- An instruction that never transfers control, and a branch that is not taken. -/
theorem witness_PcAdvancesByLength :
    (sLd.ready ∧ memRead sLd sLd.pc = .ok (Instr.ld_A_n 0x05).opcode ∧ step sLd = .next (next sLd) ∧
      transfers sLd (Instr.ld_A_n 0x05).form = false) ∧
    (let s := at_ [0x28, 0x05] s0
     s.ready ∧ memRead s s.pc = .ok (Instr.jr_Z_e 0x05).opcode ∧ step s = .next (next s) ∧
       transfers s (Instr.jr_Z_e 0x05).form = false) :=
  ⟨⟨by decide, by decide, step_of_after (by decide), by decide⟩,
    ⟨by decide, by decide, step_of_after (by decide), by decide⟩⟩

theorem witness_StoredCodeRuns :
    { s0 with pc := 0xC000 }.ready ∧ region s0.cfg 0xC000 = .wram ∧ Instr.ei.length = 1 ∧
    Instr.ei.wellFormed s0.cfg = true := by decide

theorem witness_TracePortOnlyObserves :
    (let s := withTrace true sLd
     s.cfg.trace = true ∧ s.ready ∧ memRead s s.pc = .ok (Instr.ld_A_n 0x05).opcode ∧
       (Instr.ld_A_n 0x05).wellFormed s.cfg = true) ∧
    sLd.cfg.trace = false ∧ 0 < { withTrace true sLd with pend := 1 }.pend := by decide

/-- Image K with `LD A,5` in it: the image of `sLd`. -/
def ldCart : Cartridge := cartridgeOf ⟨0x8000, ((kCells.write 0x150 0x3E).write 0x151 0x05).write 0x14F 0x97⟩

theorem ldCart_ok : CartridgeOk (.loaded ldCart) := by
  intro c h
  cases h
  refine ⟨by decide, by decide, ?_⟩
  have h : checksum ⟨romLen, ldCart.rom⟩ = 0x0297 := checksum_cells (m := ldCart.rom) (by decide)
  refine validate_ok_iff.mpr ⟨by decide, by decide, ?_, rfl⟩
  simp only [checksumOk, h]
  decide

/-- The machine after `begin` on that image. -/
def sInv : State := beginOp (construct defaultConfig (.loaded ldCart))

theorem sInv_inv : Inv sInv :=
  ⟨⟨by decide, by decide⟩, ⟨by decide, by decide⟩, by unfold PendOk; decide, ldCart_ok⟩

theorem witness_StepKeepsInvariant : Inv sInv ∧ step sInv = .next (next sInv) ∧ (next sInv).a = 0x05 :=
  ⟨sInv_inv, step_of_after (by decide), by decide⟩

theorem cellsFrom_append (l m : List Byte) (i : Nat) :
    cellsFrom i (l ++ m) = cellsFrom i l ++ cellsFrom (i + l.length) m := by
  induction l generalizing i with
  | nil => simp [cellsFrom]
  | cons v l ih =>
    have : i + 1 + l.length = i + (v :: l).length := by simp only [List.length_cons]; omega
    simp only [List.cons_append, cellsFrom, ih, this]
    split <;> simp

theorem cellsFrom_zeros (n i : Nat) : cellsFrom i (List.replicate n 0) = [] := by
  induction n generalizing i with
  | zero => rfl
  | succ n ih => simp only [List.replicate_succ, cellsFrom, if_true, ih]

/-- `validate` of a buffer of zeros fails at the signature. -/
theorem validate_zeros :
    hostStep (.validate (List.replicate 0x8000 0)) (Session.start defaultConfig) =
      .answer (.noCore defaultConfig .failed) (.loadError .invalidHeaderSignature) := by
  have h : (List.replicate 0x8000 (0 : Byte)).length = 0x8000 := List.length_replicate
  have hi : Image.ofBytes (List.replicate 0x8000 0) = ⟨0x8000, []⟩ := by
    simp only [Image.ofBytes, cellsFrom_zeros, h]
  have hv : validate ⟨0x8000, []⟩ = .error .invalidHeaderSignature := by decide
  simp only [hostStep, hostValidate, Session.start, h, hi, hv]
  rfl

/-- The same machine at an unmapped address, where the tick faults. -/
def sInvBad : State := { sInv with pc := 0x8000 }

/-- `validate`, `construct`, `reset`, `begin`, a tick, a faulting tick, and `reset` and `begin` after it, each performed
in a session that meets the invariant; the buffer is refused by the signature check. -/
theorem witness_HostOperationsKeepInvariant :
    (SessionInv (Session.start defaultConfig) ∧
      hostStep (.validate (List.replicate 0x8000 0)) (Session.start defaultConfig) =
        .answer (.noCore defaultConfig .failed) (.loadError .invalidHeaderSignature)) ∧
    (SessionInv (.noCore defaultConfig (.loaded ldCart)) ∧
      hostStep .construct (.noCore defaultConfig (.loaded ldCart)) =
        .answer (.core (construct defaultConfig (.loaded ldCart)) 0) .done) ∧
    SessionInv (.core sInv 0) ∧ hostStep .reset (.core sInv 0) = .answer (.core (resetOp sInv) 0) .done ∧
    hostStep .begin (.core sInv 0) = .answer (.core (beginOp sInv) 0) .done ∧
    hostStep .tick (.core sInv 0) = .answer (.core (next sInv) 0) .done ∧
    (SessionInv (.core sInvBad 0) ∧ hostStep .tick (.core sInvBad 0) =
      .answer (.core (latchFault (.unmappedAddress 0x8000) 0 sInvBad) 1) (.fault (.unmappedAddress 0x8000))) ∧
    (let t := latchFault (.unmappedAddress 0x8000) 0 sInvBad
     SessionInv (.core t 1) ∧ hostStep .reset (.core t 1) = .answer (.core (resetOp t) 1) .done ∧
       hostStep .begin (.core t 1) = .answer (.core (beginOp t) 1) .done) := by
  have ht : tick sInv = .next (next sInv) := step_of_after (by decide)
  have hf : tick sInvBad = .fault (.unmappedAddress 0x8000) := fault_of_faults (by decide)
  have hb : LatchedInv sInvBad := Inv.latched sInv_inv
  refine ⟨⟨fun c h => (nomatch h), validate_zeros⟩, ⟨ldCart_ok, rfl⟩, sInv_inv.latched, rfl, by decide, ?_,
    ⟨hb, ?_⟩, latchFault_inv hb _ _, rfl, rfl⟩
  · simp only [hostStep, hostTick, ht]
  · simp only [hostStep, hostTick, hf]

/-- The buffer of image K (95_test_vectors.md part 2). -/
def kBytes : List Byte :=
  List.replicate 0x100 0 ++ ([0xC3, 0x00, 0x50, 0x01] ++ (List.replicate 0x30 0 ++ ([0x54, 0x45, 0x53, 0x54] ++
    (List.replicate 0x16 0 ++ ([0x02, 0x54] ++ List.replicate 0x7EB0 0)))))

theorem kBytes_length : kBytes.length = 0x8000 := by
  simp only [kBytes, List.length_append, List.length_replicate, List.length_cons, List.length_nil]

theorem kBytes_image : Image.ofBytes kBytes = ⟨0x8000, kCells⟩ := by
  have : cellsFrom 0 kBytes = kCells := by
    simp only [kBytes, cellsFrom_append, cellsFrom_zeros, List.length_replicate, List.length_cons, List.length_nil]
    decide
  simp only [Image.ofBytes, kBytes_length, this]

/-- A successful `validate`, a failed one, and an operation on a loaded cartridge. -/
theorem witness_LoadedOnceAndImmutable :
    hostStep (.validate kBytes) (Session.start defaultConfig) = .answer (.noCore defaultConfig (.loaded kCart)) .done ∧
    hostStep (.validate (List.replicate 0x8000 0)) (Session.start defaultConfig) =
      .answer (.noCore defaultConfig .failed) (.loadError .invalidHeaderSignature) ∧
    (Session.cv (.core s0 0) = .loaded kCart ∧
      hostStep .begin (.core s0 0) = .answer (.core (beginOp s0) 0) .done) := by
  refine ⟨?_, validate_zeros, by decide, by decide⟩
  simp only [hostStep, hostValidate, Session.start, kBytes_length, kBytes_image, test_K1.1]
  rfl

theorem witness_BeginStartsAtStartVector : s0.cv = .loaded kCart ∧ CartridgeOk sInv.cv := ⟨by decide, ldCart_ok⟩

theorem witness_BeginWithoutCartridgeLatches :
    State.reset.cv.isLoaded = false ∧ { s0 with cv := .failed }.cv.isLoaded = false := by decide

/-- Both ends of Working Memory. -/
theorem witness_WorkingMemorySurvivesReset :
    region s0.cfg 0xC000 = .wram ∧ region s0.cfg 0xDFFF = .wram := by decide

theorem witness_FaultIsLatchedUntilReset : step sBad = .fault (.unimplementedOpcode 0x7E 0x0150) ∧
    (latchFault (.unimplementedOpcode 0x7E 0x0150) 0 sBad).cv.isLoaded = true :=
  ⟨fault_of_faults (by decide), by decide⟩

/-- The smallest, the default and the largest Working Memory, and the regions at their boundaries. -/
theorem witness_AddressMap :
    { defaultConfig with wramSize := 1 }.wramSizeOk = true ∧ defaultConfig.wramSizeOk = true ∧
    { defaultConfig with wramSize := 0x3F00 }.wramSizeOk = true ∧
    [0x0000, 0x7FFF, 0x8000, 0xBFFF, 0xC000, 0xDFFF, 0xE000, 0xFEFF, 0xFF00, 0xFFFF].map (region defaultConfig) =
      [.rom, .rom, .unmapped, .unmapped, .wram, .wram, .unmapped, .unmapped, .io, .io] ∧
    [0xFEFF, 0xFF00].map (region { defaultConfig with wramSize := 0x3F00 }) = [.wram, .io] := by decide

/-- Each clause at an end of its region. -/
theorem witness_MemReadByRegion :
    region s0.cfg 0x7FFF = .rom ∧ (region State.reset.cfg 0x0000 = .rom ∧ State.reset.cv.isLoaded = false) ∧
    region s0.cfg 0xC000 = .wram ∧ (region s0.cfg 0xFF00 = .io ∧ s0.cfg.ioBacking = .none) ∧
    region s0.cfg 0x8000 = .unmapped := by decide

theorem witness_MemWriteStoresOnlyInWorkingMemory :
    region s0.cfg 0xDFFF = .wram ∧ (0xC000 : Word) ≠ 0xDFFF ∧ region s0.cfg 0x7FFF = .rom ∧
    region s0.cfg 0xE000 = .unmapped ∧ (region s0.cfg 0xFFFF = .io ∧ s0.cfg.ioBacking = .none) := by decide

/-- Two bytes read, the first unmapped, the second unmapped. -/
theorem witness_WideReadIsTwoByteReads :
    (memRead s0 0xC000 = .ok 0 ∧ memRead s0 (0xC000 + 1) = .ok 0) ∧
    memRead s0 0xBFFF = .error (.unmappedAddress 0xBFFF) ∧
    (memRead s0 0xDFFF = .ok 0 ∧ memRead s0 (0xDFFF + 1) = .error (.unmappedAddress 0xE000)) := by decide

/-- A stack at the reset value of SP, whose two bytes are Working Memory. -/
theorem witness_PushThenPop :
    region s0.cfg (s0.sp - 1) = .wram ∧ region s0.cfg (s0.sp - 2) = .wram := by decide

theorem witness_JumpAbsolute : Instr.form (.jp_nn 0xFFFF) = .jp 0xFFFF := rfl

/-- Taken and not taken, the displacement at both ends of its range. -/
theorem witness_JumpRelative :
    (Instr.form (.jr_NZ_e 0x80) = .jr .NZ 0x80 ∧ Machine.cond s0 .NZ = true) ∧
    (Instr.form (.jr_Z_e 0x7F) = .jr .Z 0x7F ∧ Machine.cond s0 .Z = false) ∧
    (Instr.form (.jr_NC_e 0xFF) = .jr .NC 0xFF ∧ Machine.cond s0 .NC = true) ∧
    (Instr.form (.jr_C_e 0x00) = .jr .C 0x00 ∧ Machine.cond s0 .C = false) := by decide

theorem witness_BranchConditions : FlagsOk s0 := ⟨by decide, by decide⟩

/-- Both bytes stored, the high byte only, and both dropped. -/
theorem witness_CallPushesReturnAddress :
    Instr.form (.call_nn 0x0200) = .call 0x0200 ∧ region s0.cfg (s0.sp - 1) = .wram ∧
    region s0.cfg (s0.sp - 2) = .wram ∧
    (let s : State := { s0 with sp := 0xC001 }
     region s.cfg (s.sp - 1) = .wram ∧ region s.cfg (s.sp - 2) ≠ .wram) ∧
    (let s : State := { s0 with sp := 0x0000 }
     s.cfg.ioBacking = .none ∧ region s.cfg (s.sp - 1) ≠ .wram ∧ region s.cfg (s.sp - 2) ≠ .wram) := by decide

/-- A readable stack, an unmapped first byte, an unmapped second byte. -/
theorem witness_ReturnPopsAddress :
    Instr.form .ret = .ret ∧
    (memRead stacked stacked.sp = .ok 0x53 ∧ memRead stacked (stacked.sp + 1) = .ok 0x01) ∧
    memRead { s0 with sp := 0xE000 } 0xE000 = .error (.unmappedAddress 0xE000) ∧
    (memRead s0 s0.sp = .ok 0x00 ∧ memRead s0 (s0.sp + 1) = .error (.unmappedAddress 0xE000)) := by decide

theorem witness_ConditionalReturn :
    (Instr.form .ret_NZ = .retCc .NZ ∧ Machine.cond stacked .NZ = true ∧ memRead stacked stacked.sp = .ok 0x53 ∧
      memRead stacked (stacked.sp + 1) = .ok 0x01) ∧
    (Instr.form .ret_NC = .retCc .NC ∧ Machine.cond s0 .NC = true ∧
      memRead { s0 with sp := 0xE000 } 0xE000 = .error (.unmappedAddress 0xE000)) ∧
    (Machine.cond s0 .NZ = true ∧ memRead s0 s0.sp = .ok 0x00 ∧
      memRead s0 (s0.sp + 1) = .error (.unmappedAddress 0xE000)) ∧
    (Instr.form .ret_Z = .retCc .Z ∧ Machine.cond stacked .Z = false) ∧
    (Instr.form .ret_C = .retCc .C ∧ Machine.cond stacked .C = false) := by decide

theorem witness_CallThenReturn : region s0.cfg (s0.sp - 1) = .wram ∧ region s0.cfg (s0.sp - 2) = .wram ∧
    exec (.call_nn 0x0200) s0 = .next (setPend 5 (setPc 0x0200 (push16 s0.pc s0))) := ⟨by decide, by decide, rfl⟩

theorem witness_LoadRegisterImmediate :
    Instr.form (.ld_B_n 0x00) = .ldRn .B 0x00 ∧ Instr.form (.ld_A_n 0xFF) = .ldRn .A 0xFF := by decide

theorem witness_LoadPairImmediate : Instr.form (.ld_BC_nn 0x1234) = .ldRRnn .BC 0x1234 ∧
    Instr.form (.ld_HL_nn 0xFFFF) = .ldRRnn .HL 0xFFFF := by decide

theorem witness_LoadRegisterRegister :
    Instr.form .ld_H_L = .ldRR .H .L ∧ Instr.form .ld_A_A = .ldRR .A .A := by decide

/-- The three pairs; a store to Working Memory and a dropped one. -/
theorem witness_StoreAccumulatorThroughPair :
    Instr.form .ld_atBC_A = .ldAtRRA .BC ∧ Instr.form .ld_atDE_A = .ldAtRRA .DE ∧
    Instr.form .ld_atHL_A = .ldAtRRA .HL ∧ region s0.cfg (State.pair { s0 with h := 0xC0 } .HL) = .wram ∧
    (s0.cfg.ioBacking = .none ∧ region s0.cfg (s0.pair .HL) ≠ .wram) ∧
    ((0xC001 : Word) ≠ State.pair { s0 with h := 0xC0 } .HL ∧ region s0.cfg 0xC001 ≠ .io) := by decide

theorem witness_StoreAccumulatorThenDecrement :
    Instr.form .ld_atHLdec_A = .ldAtHLdecA ∧ region s0.cfg (State.pair { s0 with h := 0xC0 } .HL) = .wram ∧
    (s0.cfg.ioBacking = .none ∧ region s0.cfg (s0.pair .HL) ≠ .wram) := by decide

/-- The same machine with a device behind the I/O window that answers at offset 0x44 (log 6). -/
def sDev : State := { s0 with cfg := { defaultConfig with ioBacking := .device [0x44] } }

theorem witness_HighPageStore :
    Instr.form (.ldh_n_A 0xFF) = .ldhNA 0xFF ∧ s0.cfg.wramSizeOk = true ∧ s0.cfg.ioBacking = .none ∧
    (Instr.form (.ldh_n_A 0x00) = .ldhNA 0x00 ∧ sDev.cfg.wramSizeOk = true) := by decide

theorem witness_HighPageFetch :
    (Instr.form (.ldh_A_n 0xFF) = .ldhAN 0xFF ∧ s0.cfg.wramSizeOk = true ∧ s0.cfg.ioBacking = .none) ∧
    (Instr.form (.ldh_A_n 0x44) = .ldhAN 0x44 ∧ sDev.cfg.wramSizeOk = true ∧
      sDev.cfg.ioBacking = .device [0x44] ∧ (0x44 : Byte) ∈ [(0x44 : Byte)]) ∧
    (Instr.form (.ldh_A_n 0x00) = .ldhAN 0x00 ∧ (0x00 : Byte) ∉ [(0x44 : Byte)]) := by decide

theorem witness_DecrementRegister : Instr.form .dec_B = .decR .B ∧ Instr.form .dec_A = .decR .A := by decide

theorem witness_DecrementPair : Instr.form .dec_BC = .decRR .BC ∧ Instr.form .dec_HL = .decRR .HL := by decide

theorem witness_ExclusiveOr : (Instr.form .xor_A = .xorR .A ∧ s0.a = s0.reg .A) ∧
    Instr.form (.xor_n 0xFF) = .xorN 0xFF := by decide

theorem witness_BitwiseAnd : (Instr.form .and_L = .andR .L ∧ s0.l = s0.reg .L) ∧
    Instr.form (.and_n 0x00) = .andN 0x00 := by decide

theorem witness_Compare : (Instr.form .cp_B = .cpR .B ∧ s0.b = s0.reg .B) ∧
    Instr.form (.cp_n 0x94) = .cpN 0x94 := by decide

/-- Every flag has a bit outside its mask. -/
theorem witness_SetFlagChangesOneBit :
    (Flag.mask .Z).getLsbD 0 = false ∧ (Flag.mask .N).getLsbD 7 = false ∧ (Flag.mask .H).getLsbD 4 = false ∧
    (Flag.mask .C).getLsbD 5 = false := by decide

/-- Next states of a flag instruction, a return that is not taken, and a push. -/
theorem witness_FlagTable : exec .and_A s0 = .next (setPend 0 (andAcc s0.a s0)) := rfl

theorem witness_RegistersWritten :
    exec .ret_Z stacked = .next { stacked with pend := 1 } ∧ Machine.cond stacked .Z = false ∧
    (exec .nop s0 = .next { s0 with pend := 0 } ∧ (∀ nn, Instr.nop.form ≠ .call nn) ∧ Instr.nop.form ≠ .ret ∧
      Instr.nop.form ≠ .di ∧ Instr.nop.form ≠ .ei) := ⟨rfl, by decide, rfl, fun _ h => (nomatch h), by decide⟩

theorem witness_MemoryFrame :
    exec .ld_atHL_A { s0 with h := 0xC0 } = .next (setPend 1 (memWrite 0xC000 0 { s0 with h := 0xC0 })) ∧
    (0xC001 : Word) ∉ storedAddresses { s0 with h := 0xC0 } (Instr.form .ld_atHL_A) ∧
    (s0.cfg.ioBacking = .none ∨ region s0.cfg 0xC001 ≠ .io) ∧
    (exec .nop s0 = .next { s0 with pend := 0 } ∧ storedAddresses s0 Instr.nop.form = []) :=
  ⟨rfl, by decide, by decide, rfl, by decide⟩

/-- Image K passes; K2, K4 and K6 fail at the three checks. -/
theorem witness_ValidationOrder :
    (let img : Image := ⟨0x8000, kCells.write 0x100 0⟩
     ¬ (img.byte 0x100 = 0xC3 ∧ img.byte 0x101 = 0)) ∧
    (let img : Image := ⟨0x8000, kCells.write 0x147 1⟩
     img.byte 0x100 = 0xC3 ∧ img.byte 0x101 = 0 ∧ ¬ (img.byte 0x147 = 0 ∧ img.byte 0x148 = 0)) ∧
    (let img : Image := ⟨0x8000, kCells.write 0x150 0x76⟩
     img.byte 0x100 = 0xC3 ∧ img.byte 0x101 = 0 ∧ img.byte 0x147 = 0 ∧ img.byte 0x148 = 0 ∧
       checksum img ≠ cat (img.byte 0x14E) (img.byte 0x14F)) ∧
    (let img : Image := ⟨0x8000, kCells⟩
     img.byte 0x100 = 0xC3 ∧ img.byte 0x101 = 0 ∧ img.byte 0x147 = 0 ∧ img.byte 0x148 = 0 ∧
       checksum img = cat (img.byte 0x14E) (img.byte 0x14F)) := by
  have h1 : checksum ⟨0x8000, kCells.write 0x150 0x76⟩ = 0x02CA := checksum_cells (by decide)
  have h2 : checksum ⟨0x8000, kCells⟩ = 0x0254 := checksum_cells (by decide)
  simp only [h1, h2]
  decide

/-- Image K with one byte changed, at each of the three kinds of offset. -/
theorem witness_OneChangedByteFailsValidation :
    validate ⟨0x8000, kCells⟩ = .ok kCart ∧ ∀ k ∈ [0x100, 0x148, 0x14F, 0x7FFF], k < 0x8000 ∧
      Image.SameBut k ⟨0x8000, kCells⟩ ⟨0x8000, kCells.write k 0x77⟩ ∧
      Image.byte ⟨0x8000, kCells.write k 0x77⟩ k ≠ Image.byte ⟨0x8000, kCells⟩ k := by
  refine ⟨test_K1.1, fun k hk => ⟨?_, ⟨rfl, fun i hi => ?_⟩, ?_⟩⟩
  · revert k
    decide
  · simp [Image.byte, Memory.read_write, Ne.symm hi]
  · revert k
    decide

/-- The highest byte of the image; a word read across the wrap; an unloaded validator. -/
theorem witness_ReadPortWraps :
    Validator.isLoaded .unloaded = false ∧ (0x17FFF % 65536 < 0x8000) ∧
    (cartRead8 (.loaded kCart) 0x7FFE = .ok 0x00 ∧ cartRead8 (.loaded kCart) ((0x7FFE + 1) % 65536) = .ok 0x00) := by
  decide

/-- A title of four characters and one of none. -/
theorem witness_TitleRunsToFirstZero : (imageTitle ⟨0x8000, kCells⟩).length = 4 ∧
    (imageTitle ⟨0x8000, kCells.write 0x134 0⟩).length = 0 := by decide

end Sys2Proof.Tests
end

/-! PROOFS. The state family (10_state.md): one equation for every meaning, the frame of each instruction read off
it, and the invariant of the machine. -/

namespace Sys2Proof.Machine

/-! ## One equation for every meaning -/

/-- What a meaning reads from memory, or the fault of the first byte it cannot read: the return address of a taken
return (R65), the byte of `LDH A,(n)` (R157). A meaning that reads nothing answers 0. -/
def dataRead (s : State) : Form → Except Fault Word
  | .ret => memRead16 s s.sp
  | .retCc c => if cond s c then memRead16 s s.sp else .ok 0
  | .ldhAN n => (memRead s (highPage n)).map (cat 0)
  | _ => .ok 0

/-- What a meaning makes of the state and of the word it read, before PEND is written. -/
def effect (s : State) (w : Word) : Form → State
  | .nop => s
  | .ldRRnn p nn => setPair p nn s
  | .ldAtRRA p => memWrite (s.pair p) s.a s
  | .decRR p => setPair p (s.pair p - 1) s
  | .decR r => setFlag .N true (setFlag .Z (s.reg r - 1 == 0) (setReg r (s.reg r - 1) s))
  | .ldRn r n => setFlag .Z (n == 0) (setReg r n s)
  | .jr c e => if cond s c then setPc (s.pc + sext e) s else s
  | .ldAtHLdecA => setFlag .N true (setFlag .Z (s.pair .HL - 1 == 0)
      (setPair .HL (s.pair .HL - 1) (memWrite (s.pair .HL) s.a s)))
  | .ldRR r r' => setReg r (s.reg r') s
  | .andR r => andAcc (s.reg r) s
  | .xorR r => xorAcc (s.reg r) s
  | .cpR r => cpAcc (s.reg r) s
  | .retCc c => if cond s c then setPc w (setSp (s.sp + 2) s) else s
  | .jp nn => setPc nn s
  | .ret => setPc w (setSp (s.sp + 2) s)
  | .call nn => setPc nn (push16 s.pc s)
  | .ldhNA n => memWrite (highPage n) s.a s
  | .andN n => andAcc n s
  | .xorN n => xorAcc n s
  | .ldhAN _ => setReg .A (lo w) s
  | .di => { s with ime := false }
  | .cpN n => cpAcc n s
  | .ei => { s with ime := true }

/-- The outcome of a meaning, given what it read: the fault of the read, or the effect with the cost of the class in
PEND (R126). -/
def outcome (s : State) (F : Form) : Except Fault Word → Result
  | .error r => .fault r
  | .ok w => .next (setPend (formCost s.cfg.cost (transfers s F) F - 1) (effect s w F))

theorem popPc_eq_memRead16 (n : Nat) (s : State) : popPc n s =
    match memRead16 s s.sp with
    | .error r => .fault r
    | .ok w => .next (setPend (n - 1) (setPc w (setSp (s.sp + 2) s))) := by
  rw [popPc_eq, memRead16]
  cases memRead s s.sp with
  | error r => rfl
  | ok low => cases memRead s (s.sp + 1) <;> rfl

/-- Every meaning is one data read, then one effect that depends on nothing else. -/
theorem exec_eq_outcome (i : Instr) (s : State) : exec i s = outcome s i.form (dataRead s i.form) := by
  rw [exec_eq_execForm]
  cases i.form with
  | ret =>
    simp only [execForm, returnAlways, popPc_eq_memRead16, dataRead]
    cases memRead16 s s.sp <;> rfl
  | retCc c =>
    cases hc : cond s c
    · simp [execForm, returnIf, dataRead, outcome, effect, formCost, transfers, done, hc]
    · simp only [execForm, returnIf, popPc_eq_memRead16, dataRead, hc, if_true]
      cases memRead16 s s.sp <;> simp [outcome, effect, formCost, transfers, hc]
  | jr c e => cases hc : cond s c <;> simp [execForm, jumpRel, dataRead, outcome, effect, formCost, transfers, done, hc]
  | ldhAN n =>
    simp only [execForm, loadHigh, dataRead]
    cases memRead s (highPage n) with
    | error r => rfl
    | ok v => simp [Except.map, outcome, effect, formCost, done]
  | _ => rfl

/-- What an instruction that completes has done: its read succeeded, and the next state is its effect with PEND
written. -/
theorem exec_next {i : Instr} {s t : State} (h : exec i s = .next t) :
    ∃ w, dataRead s i.form = .ok w ∧
      t = setPend (formCost s.cfg.cost (transfers s i.form) i.form - 1) (effect s w i.form) := by
  rw [exec_eq_outcome] at h
  cases hr : dataRead s i.form with
  | error r => rw [hr] at h; exact nomatch h
  | ok w => rw [hr] at h; cases h; exact ⟨w, rfl, rfl⟩

/-! ## PEND and PC -/

theorem exec_pend {i : Instr} {s t : State} (h : exec i s = .next t) :
    t.pend = formCost s.cfg.cost (transfers s i.form) i.form - 1 := by
  obtain ⟨w, -, rfl⟩ := exec_next h
  rfl

/-- No cost exceeds the largest one. -/
theorem formCost_le_maxCost (k : Cost) (taken : Bool) (F : Form) : formCost k taken F ≤ maxCost k := by
  refine le_foldl_max ?_ 0
  cases F <;> cases taken <;> simp [formCost]

/-- Only a control transfer writes PC (R27); the engine has moved it past the instruction before. -/
theorem effect_pc {s : State} {F : Form} (h : transfers s F = false) (w : Word) : (effect s w F).pc = s.pc := by
  cases F with
  | jr c _ | retCc c => simp [effect, show cond s c = false from h]
  | jp | ret | call => exact nomatch h
  | _ => simp [effect, andAcc, xorAcc, cpAcc]

theorem exec_pc {i : Instr} {s t : State} (h : exec i s = .next t) (hi : transfers s i.form = false) :
    t.pc = s.pc := by
  obtain ⟨w, -, rfl⟩ := exec_next h
  exact effect_pc hi w

/-- The class in the row of the dispatch table at a byte, its immediate operand 0. -/
def rowForm (op : Byte) : Form :=
  match lookup op with
  | some (.op i) => i.form
  | some (.opN f) => (f 0).form
  | some (.opNN f) => (f 0).form
  | none => .nop

/-- Whether an instruction transfers control does not depend on its immediate operand. -/
theorem transfers_form_eq_rowForm (s : State) (i : Instr) : transfers s i.form = transfers s (rowForm i.opcode) := by
  cases i <;> rfl

/-- The length of an instruction depends on its opcode byte only (R82). -/
theorem length_eq_rowForm (i : Instr) : i.length = (rowForm i.opcode).operands.length + 1 := by
  cases i <;> rfl

theorem transfers_setPc (s : State) (v : Word) (F : Form) : transfers (setPc v s) F = transfers s F := by
  cases F <;> rfl

/-- What the step of a ready state runs: an instruction with the opcode byte at PC, which alone fixes how far PC has
moved. -/
theorem step_ready_next {s t : State} {i : Instr} (hs : s.ready) (hm : memRead s s.pc = .ok i.opcode)
    (h : step s = .next t) :
    ∃ j : Instr, j.opcode = i.opcode ∧ exec j (setPc (s.pc + BitVec.ofNat 16 i.length) s) = .next t := by
  have ⟨_, hflt, hpend⟩ := hs
  obtain ⟨-, ⟨hf, -⟩ | ⟨-, hp, -⟩ | ⟨-, j, op, v, hop, -, hj, rfl, he⟩⟩ := step_next_cases h
  · exact absurd hflt hf
  · omega
  · have hji : j.opcode = i.opcode := hj.trans (Except.ok.inj (hop.symm.trans hm))
    refine ⟨j, hji, ?_⟩
    rwa [length_eq_rowForm i, ← hji, ← length_eq_rowForm j]

/-- Settles O14: the step runs an instruction of the same length and class as `i`, which leaves PC where the fetch
put it. -/
theorem pcAdvancesByLength : Obligations.PcAdvancesByLength := by
  intro s t i hs hm h hi
  obtain ⟨j, hj, he⟩ := step_ready_next hs hm h
  refine exec_pc he ?_
  rw [transfers_setPc, transfers_form_eq_rowForm, hj, ← transfers_form_eq_rowForm, hi]

/-! ## Flags -/

/-- A difference is zero exactly on equal operands, with zero as `simp` spells it. -/
theorem sub_eq_ofNat_zero_iff {n : Nat} (x y : BitVec n) : x - y = 0#n ↔ x = y := sub_eq_zero

/-- The flags of XOR (R34): Z says whether the operands were equal. -/
theorem flag_xorAcc (v : Byte) (s : State) (x : Flag) :
    (xorAcc v s).flag x = (writes (some (s.a = v)) none none none x).getD (s.flag x) := by
  cases x <;> simp [xorAcc, writes, beq_eq_decide]

/-- The flags of AND (R34). -/
theorem flag_andAcc (v : Byte) (s : State) (x : Flag) :
    (andAcc v s).flag x = (writes (some (s.a &&& v = 0)) (some false) (some true) (some false) x).getD (s.flag x) := by
  cases x <;> simp [andAcc, writes, beq_eq_decide]

/-- The flags of CP (R34): Z says whether the operands were equal. -/
theorem flag_cpAcc (v : Byte) (s : State) (x : Flag) :
    (cpAcc v s).flag x = (writes (some (s.a = v)) none none none x).getD (s.flag x) := by
  cases x <;> simp [cpAcc, writes, sub_eq_ofNat_zero_iff, beq_eq_decide]

/-- Each flag after a meaning is the one in R34's table. -/
theorem flag_effect (s : State) (w : Word) (F : Form) (x : Flag) :
    (effect s w F).flag x = (flagWritten s F x).getD (s.flag x) := by
  cases F with
  | ldRn r n => cases x <;> simp [effect, flagWritten, writes, beq_eq_decide]
  | decR | ldAtHLdecA => cases x <;> simp [effect, flagWritten, writes, sub_eq_ofNat_zero_iff, beq_eq_decide]
  | andR | andN => exact flag_andAcc _ s x
  | xorR | xorN => exact flag_xorAcc _ s x
  | cpR | cpN => exact flag_cpAcc _ s x
  | jr c _ | retCc c => cases hc : cond s c <;> cases x <;> simp [effect, hc, flagWritten, writes]
  | di | ei => cases x <;> rfl
  | _ => cases x <;> simp [effect, flagWritten, writes]

/-- No meaning changes bits 3 to 0 of F (R32): F is written by SetFlag alone. -/
theorem effect_f_low (s : State) (w : Word) (F : Form) : (effect s w F).f &&& 0x0F = s.f &&& 0x0F := by
  cases F with
  | jr c _ | retCc c => cases hc : cond s c <;> simp [effect, hc]
  | _ => simp only [effect, andAcc, xorAcc, cpAcc, setFlag_low, setReg_f, setPair_f, memWrite_f, setPc_f, setSp_f,
      push16_f]

/-- Settles O53: the table is that of the effects, and writing PEND touches no flag. -/
theorem flagTable : Obligations.FlagTable := by
  intro i s t h
  obtain ⟨w, -, rfl⟩ := exec_next h
  exact ⟨flag_effect s w i.form, effect_f_low s w i.form⟩

/-! ## Registers -/

/-- A meaning writes only the 8-bit registers of its class (R24). -/
theorem reg_effect_of_notMem {F : Form} {r : Reg8} (h : r ∉ regsWritten F) (s : State) (w : Word) :
    (effect s w F).reg r = s.reg r := by
  cases F with
  | jr c _ | retCc c => cases hc : cond s c <;> simp [effect, hc]
  | di | ei => cases r <;> rfl
  | _ => simp_all [effect, regsWritten, andAcc, xorAcc, cpAcc, Pair.high, Pair.low]

/-- SP is written by CALL and by a taken return only (R36). -/
theorem effect_sp {s : State} {F : Form} (hcall : ∀ nn, F ≠ .call nn) (hret : F ≠ .ret)
    (hcc : ∀ c, F = .retCc c → cond s c = false) (w : Word) : (effect s w F).sp = s.sp := by
  cases F with
  | call nn => exact absurd rfl (hcall nn)
  | ret => exact absurd rfl hret
  | retCc c => simp [effect, hcc c rfl]
  | jr c e => cases hc : cond s c <;> simp [effect, hc]
  | _ => simp [effect, andAcc, xorAcc, cpAcc]

/-- IME is written by DI and EI only (R37). -/
theorem effect_ime {F : Form} (hdi : F ≠ .di) (hei : F ≠ .ei) (s : State) (w : Word) :
    (effect s w F).ime = s.ime := by
  cases F with
  | di => exact absurd rfl hdi
  | ei => exact absurd rfl hei
  | jr c _ | retCc c => cases hc : cond s c <;> simp [effect, hc]
  | _ => simp [effect, andAcc, xorAcc, cpAcc]

/-- Settles O54, register by register of the effects; the system fields are `exec_keeps_system`. -/
theorem registersWritten : Obligations.RegistersWritten := by
  intro i s t h
  refine ⟨?_, ?_, ?_, exec_keeps_system h⟩ <;> obtain ⟨w, -, rfl⟩ := exec_next h
  · intro r hr
    rw [reg_setPend, reg_effect_of_notMem hr]
  · exact fun hcall hret hcc => effect_sp hcall hret hcc w
  · exact fun hdi hei => effect_ime hdi hei s w

/-- Settles O52: bit by bit, the mask has one bit and the update touches no other. -/
theorem setFlagChangesOneBit : Obligations.SetFlagChangesOneBit := by
  intro x b s
  refine ⟨rfl, fun k hk hx => ?_, by simp, rfl⟩
  have hff : ∀ j < 8, (0xFF : Byte).getLsbD j = true := by decide
  cases b
  · simp only [setFlag, Bool.false_eq_true, if_false, BitVec.getLsbD_and, BitVec.getLsbD_xor, hff k hk, hx,
      Bool.xor_false, Bool.and_true]
  · simp only [setFlag, if_true, BitVec.getLsbD_or, hx, Bool.or_false]

/-! ## The invariant of the machine -/

/-- The table of R34 never sets C (R35). -/
theorem flagWritten_C (s : State) (F : Form) : (flagWritten s F .C).getD false = false := by
  cases F <;> rfl

theorem exec_keeps_flagsOk {i : Instr} {s t : State} (h : exec i s = .next t) (hs : FlagsOk s) : FlagsOk t := by
  obtain ⟨hlow, hc⟩ := hs
  obtain ⟨hflag, hf⟩ := flagTable i s t h
  exact ⟨hf.trans hlow, by rw [hflag, hc, flagWritten_C]⟩

theorem exec_keeps_inv {i : Instr} {s t : State} (h : exec i s = .next t) (hs : Inv s) : Inv t := by
  obtain ⟨hw, hf, -, hv⟩ := hs
  obtain ⟨-, hcv, hcfg, -⟩ := exec_keeps_system h
  refine ⟨?_, exec_keeps_flagsOk h hf, ?_, hcv ▸ hv⟩
  · rw [WramOk, hcfg]
    simpa [hcfg] using exec_keeps_wram h hw
  · rw [PendOk, exec_pend h, hcfg]
    exact Nat.sub_le_sub_right (formCost_le_maxCost ..) 1

/-- Settles O17, by what a step can do: nothing, one idle cycle, or one instruction. -/
theorem stepKeepsInvariant : Obligations.StepKeepsInvariant := by
  intro s t hs h
  obtain ⟨-, ⟨-, rfl⟩ | ⟨-, -, rfl⟩ | ⟨-, i, _, v, -, -, -, -, he⟩⟩ := step_next_cases h
  · exact hs
  · obtain ⟨hw, hf, hp, hv⟩ := hs
    exact ⟨hw, hf, (Nat.sub_le _ 1).trans hp, hv⟩
  · exact exec_keeps_inv (s := setPc v s) he hs

/-- Settles O18: Working Memory is empty, F and PEND are 0, and no cartridge is loaded. -/
theorem resetMeetsInvariant : Obligations.ResetMeetsInvariant := by
  refine ⟨⟨by decide, ?_⟩, ⟨by decide, by decide⟩, Nat.zero_le _, ?_⟩
  · exact fun _ hx => nomatch hx
  · exact fun _ hc => nomatch hc

/-! ## Construction and the cartridge -/

/-- Settles O22: the fields are those of construction, and empty Working Memory reads 0 at every index. -/
theorem powerOnValues : Obligations.PowerOnValues := by
  refine ⟨fun cfg cv => ⟨rfl, rfl, rfl, fun w hw => ?_⟩, rfl⟩
  have hr : region (construct cfg cv).cfg w = .wram := hw
  rw [memRead, hr]
  rfl

/-- No step changes the Cartridge Validator (R40). -/
theorem step_keeps_cv {s t : State} (h : step s = .next t) : t.cv = s.cv := by
  obtain ⟨-, ⟨-, rfl⟩ | ⟨-, -, rfl⟩ | ⟨-, i, _, v, -, -, -, -, he⟩⟩ := step_next_cases h
  · rfl
  · rfl
  · exact (exec_keeps_system he).2.1

/-- What a `validate` that is performed answers: it was the first, and it leaves the cartridge or a failed
validator (R104, R109). -/
theorem hostValidate_answer {cfg : Config} {cv : Validator} {bytes : List Byte} {y : Session} {r : Response}
    (h : hostValidate cfg cv bytes = .answer y r) : cv = .unloaded ∧
      ((∃ c, validate (Image.ofBytes bytes) = .ok c ∧ y = .noCore cfg (.loaded c) ∧ r = .done) ∨
        ∃ e, validate (Image.ofBytes bytes) = .error e ∧ y = .noCore cfg .failed ∧ r = .loadError e) := by
  cases cv with
  | failed => exact nomatch h
  | loaded c => exact nomatch h
  | unloaded =>
    refine ⟨rfl, ?_⟩
    simp only [hostValidate] at h
    split at h
    · exact nomatch h
    · split at h
      · rename_i c hv
        cases h
        exact .inl ⟨c, hv, rfl, rfl⟩
      · rename_i e hv
        cases h
        exact .inr ⟨e, hv, rfl, rfl⟩

/-- A performed `validate` ran before the CPU Core existed (R223). -/
theorem hostStep_validate_answer {x y : Session} {bytes : List Byte} {r : Response}
    (h : hostStep (.validate bytes) x = .answer y r) :
    ∃ cfg cv, x = .noCore cfg cv ∧ hostValidate cfg cv bytes = .answer y r := by
  cases x with
  | noCore cfg cv => exact ⟨cfg, cv, rfl, h⟩
  | core s k => exact nomatch h

theorem hostBegin_keeps_cv {s : State} {k : Nat} {y : Session} {r : Response}
    (h : hostBegin s k = .answer y r) : y.cv = s.cv := by
  obtain ⟨-, -, hcv, -⟩ := beginOp_keeps s
  unfold hostBegin at h
  split at h <;> cases h <;> exact hcv

theorem hostTick_keeps_cv {s : State} {k : Nat} {y : Session} {r : Response}
    (h : hostTick s k = .answer y r) : y.cv = s.cv := by
  unfold hostTick at h
  split at h
  · rename_i t ht
    cases h
    exact step_keeps_cv ht
  · cases h
    rfl
  · exact nomatch h

/-- Every performed operation of the host but `validate` leaves the Cartridge Validator alone, and `validate` is
performed on an unloaded one only (R40, R109). -/
theorem hostStep_keeps_cv {op : HostOp} {x y : Session} {r : Response} (hx : x.cv ≠ .unloaded)
    (h : hostStep op x = .answer y r) : y.cv = x.cv := by
  match op, x with
  | .validate _, x =>
    obtain ⟨cfg, cv, rfl, hv⟩ := hostStep_validate_answer h
    exact absurd (hostValidate_answer hv).1 hx
  | .construct, .noCore _ _ | .reset, .core _ _ => cases h; rfl
  | .begin, .core _ _ => exact hostBegin_keeps_cv h
  | .tick, .core _ _ => exact hostTick_keeps_cv h
  | .construct, .core _ _ | .reset, .noCore _ _ | .begin, .noCore _ _ | .tick, .noCore _ _ => exact nomatch h

/-- Settles O20, by what `validate` answers and by the frame of every other operation. -/
theorem loadedOnceAndImmutable : Obligations.LoadedOnceAndImmutable := by
  refine ⟨fun _ => rfl, fun x y bytes h => ?_, fun x y bytes e h => ?_, fun op x y r c hx h => ?_⟩
  · obtain ⟨cfg, cv, -, hv⟩ := hostStep_validate_answer h
    obtain ⟨-, ⟨c, hc, rfl, -⟩ | ⟨e, -, -, hr⟩⟩ := hostValidate_answer hv
    · exact ⟨c, hc, rfl⟩
    · exact nomatch hr
  · obtain ⟨cfg, cv, -, hv⟩ := hostStep_validate_answer h
    obtain ⟨-, ⟨c, -, -, hr⟩ | ⟨e', he, rfl, hr⟩⟩ := hostValidate_answer hv
    · exact nomatch hr
    · cases hr
      exact ⟨he, rfl⟩
  · exact (hostStep_keeps_cv (by rw [hx]; exact nofun) h).trans hx

end Sys2Proof.Machine

/-! PROOFS. The memory family (20_memory.md): the address map, byte and word accesses by region, the stack, and code
stored to Working Memory. -/

namespace Sys2Proof.Machine

/-! ## The address map -/

theorem wramSize_le {cfg : Config} (h : cfg.wramSizeOk = true) : cfg.wramSize ≤ 0x3F00 := by
  simp only [Config.wramSizeOk, Bool.and_eq_true, decide_eq_true_eq] at h
  exact h.2

/-- A legal Working Memory ends below the I/O window, so the window is all of the top of the address space (R55). -/
theorem region_eq_io {cfg : Config} {w : Word} (h : cfg.wramSizeOk = true) :
    region cfg w = .io ↔ ioBase ≤ w.toNat := by
  have hs := wramSize_le h
  unfold region romEnd wramBase ioBase
  split_ifs with hrom hwram hio
  · simp only [false_iff]; omega
  · simp only [false_iff]; omega
  · simp only [hio]
  · simp only [hio]

/-- Unmapped is what is left of the address space (R53). -/
theorem region_eq_unmapped {cfg : Config} {w : Word} :
    region cfg w = .unmapped ↔ region cfg w ≠ .rom ∧ region cfg w ≠ .wram ∧ region cfg w ≠ .io := by
  cases region cfg w <;> simp

/-- Settles O27: the first three regions are their intervals, and the unmapped ones are the rest. -/
theorem addressMap : Obligations.AddressMap := by
  intro cfg w h
  have hs := wramSize_le h
  refine ⟨region_eq_rom, region_eq_wram, region_eq_io h, ?_⟩
  rw [region_eq_unmapped, Ne, Ne, Ne, region_eq_rom, region_eq_wram, region_eq_io h, romEnd, wramBase, ioBase]
  omega

/-! ## Reads -/

theorem memRead_rom {s : State} {w : Word} (h : region s.cfg w = .rom) : memRead s w = cartRead8 s.cv w.toNat := by
  simp only [memRead, h]

theorem memRead_wram {s : State} {w : Word} (h : region s.cfg w = .wram) :
    memRead s w = .ok (s.wram.read (w.toNat - wramBase)) := by
  simp only [memRead, h]

theorem memRead_io {s : State} {w : Word} (h : region s.cfg w = .io) : memRead s w = ioRead s w := by
  simp only [memRead, h]

theorem memRead_unmapped {s : State} {w : Word} (h : region s.cfg w = .unmapped) :
    memRead s w = .error (.unmappedAddress w) := by
  simp only [memRead, h]

/-- With nothing attached every read of the I/O window raises (R54). -/
theorem ioRead_none {s : State} (h : s.cfg.ioBacking = .none) (w : Word) :
    ioRead s w = .error (.unmappedAddress w) := by
  simp only [ioRead, h]

/-- The read port raises as long as no cartridge is loaded (R110, R204). -/
theorem cartRead8_not_loaded {v : Validator} (h : v.isLoaded = false) (n : Nat) :
    cartRead8 v n = .error .cartridgeNotLoaded := by
  cases v with
  | loaded c => exact nomatch h
  | unloaded | failed => rfl

/-- Settles O28, one read law for each region. -/
theorem memReadByRegion : Obligations.MemReadByRegion := by
  intro s w
  refine ⟨memRead_rom, fun h hv => ?_, memRead_wram, fun h hio => ?_, memRead_unmapped⟩
  · rw [memRead_rom h, cartRead8_not_loaded hv]
  · rw [memRead_io h, ioRead_none hio]

theorem memRead16_of_bytes {s : State} {w : Word} {low high : Byte} (hl : memRead s w = .ok low)
    (hh : memRead s (w + 1) = .ok high) : memRead16 s w = .ok (cat high low) := by
  simp only [memRead16, hl, hh]

/-- Settles O30: the bytes are concatenated high first, and each fault ends the read where it is raised. -/
theorem wideReadIsTwoByteReads : Obligations.WideReadIsTwoByteReads := by
  intro s w
  refine ⟨fun low high hl hh => ⟨cat high low, memRead16_of_bytes hl hh, toNat_cat high low⟩, ?_, ?_⟩
  · intro r hr
    simp only [memRead16, hr]
  · intro low r hl hr
    simp only [memRead16, hl, hr]

/-- A word read sees neither PC nor PEND. -/
@[simp] theorem memRead16_setPc (s : State) (v w : Word) : memRead16 (setPc v s) w = memRead16 s w := by
  simp only [memRead16, memRead_setPc]

@[simp] theorem memRead16_setPend (s : State) (n : Nat) (w : Word) : memRead16 (setPend n s) w = memRead16 s w := by
  simp only [memRead16, memRead_setPend]

/-! ## Writes -/

/-- A store to Working Memory leaves every other address as it was, the window of an attached device included: the
device is not touched (R52, R58). -/
theorem memRead_memWrite_wram_other {s : State} {w x : Word} (hw : region s.cfg w = .wram) (h : x ≠ w) (v : Byte) :
    memRead (memWrite w v s) x = memRead s x := by
  by_cases hx : region s.cfg x = .io
  · rw [memWrite_wram_of_region hw, memRead_io hx]
    exact memRead_io hx
  · exact memRead_memWrite_other h (.inr hx) v

/-- Settles O29: in Working Memory the laws of storage, elsewhere the write is dropped. -/
theorem memWriteStoresOnlyInWorkingMemory : Obligations.MemWriteStoresOnlyInWorkingMemory := by
  intro s w v
  refine ⟨fun h => ⟨memRead_memWrite_same h v, fun x hx => memRead_memWrite_wram_other h hx v, ?_⟩, ?_, ?_⟩
  · rw [memWrite_wram_of_region h]
  · rintro (h | h) <;> simp only [memWrite, h]
  · intro h hio
    exact memWrite_dropped (by rw [h]; decide) hio v

/-! ## The stack -/

/-- The word a push stored is read back at the new SP, where both its bytes are Working Memory (R64). -/
theorem memRead16_push16 {s : State} (h1 : region s.cfg (s.sp - 1) = .wram) (h2 : region s.cfg (s.sp - 2) = .wram)
    (v : Word) : memRead16 (push16 v s) (s.sp - 2) = .ok v := by
  have hsp : s.sp - 2 + 1 = s.sp - 1 := by bv_omega
  rw [memRead16_of_bytes (memRead_push16_low h2) (by rw [hsp, memRead_push16_high h1]), cat_hi_lo]

/-- A pop is a word read at SP, after which SP moves up by 2 (R65). -/
theorem pop16_eq_memRead16 (s : State) : pop16 s = (memRead16 s s.sp).map (·, setSp (s.sp + 2) s) := by
  rw [pop16_eq, memRead16]
  cases memRead s s.sp with
  | error r => rfl
  | ok low => cases memRead s (s.sp + 1) <;> rfl

/-- Settles O31: the pop reads the word the push left at the new SP. -/
theorem pushThenPop : Obligations.PushThenPop := by
  intro s v
  refine ⟨push16_sp s v, fun h1 h2 => ⟨memRead_push16_high h1, memRead_push16_low h2, ?_⟩⟩
  refine ⟨setSp ((push16 v s).sp + 2) (push16 v s), ?_, ?_, rfl⟩
  · rw [pop16_eq_memRead16, push16_sp, memRead16_push16 h1 h2]
    rfl
  · rw [setSp_sp, push16_sp, BitVec.sub_add_cancel]

/-- RET with a readable stack slot (R144). -/
theorem exec_ret_of_memRead16 {s : State} {v : Word} (h : memRead16 s s.sp = .ok v) :
    exec .ret s = .next (setPend (s.cfg.cost.ret - 1) (setPc v (setSp (s.sp + 2) s))) := by
  rw [exec_eq_outcome]
  simp only [Instr.form, dataRead, h]
  rfl

/-- CALL always completes: the address after it is pushed, and PC is its operand (R143). -/
theorem exec_call (nn : Word) (s : State) : exec (.call_nn nn) s =
    .next (setPend (s.cfg.cost.call - 1) (setPc nn (push16 s.pc s))) :=
  rfl

/-- Settles O38: RET finds the return address where CALL pushed it, and the two write nothing else but PEND and
Working Memory. -/
theorem callThenReturn : Obligations.CallThenReturn := by
  intro nn s t h1 h2 h
  rw [exec_call] at h
  cases h
  have hread : memRead16 (push16 s.pc s) (push16 s.pc s).sp = .ok s.pc := by
    rw [push16_sp, memRead16_push16 h1 h2]
  refine ⟨_, exec_ret_of_memRead16 (v := s.pc) (by simpa using hread), rfl, ?_, ?_⟩
  · simp [push16_sp]
  · simp [RegsKept, FlagsKept, SystemKept]

/-! ## Code in Working Memory -/

/-- A one-byte instruction has a row without operands. -/
theorem lookup_of_length_one {i : Instr} (h : i.length = 1) : lookup i.opcode = some (.op i) := by
  simp only [Instr.length, encode, List.length_cons, Nat.reduceEqDiff, List.length_eq_zero_iff] at h
  obtain ⟨hl, -⟩ | ⟨f, n, -, ho, -⟩ | ⟨f, nn, -, ho, -⟩ := lookup_cases i
  · exact hl
  · exact absurd (ho.symm.trans h) (by simp)
  · exact absurd (ho.symm.trans h) (by simp)

/-- A byte write leaves the engine ready (R122). -/
theorem ready_memWrite {s : State} (h : s.ready) (w : Word) (v : Byte) : (memWrite w v s).ready := by
  simpa [State.ready] using h

/-- Settles O15: the step fetches the stored byte, whose row is the instruction's. -/
theorem storedCodeRuns : Obligations.StoredCodeRuns := by
  intro s i hs hw hlen hi
  have hfetch : memRead (memWrite s.pc i.opcode s) (memWrite s.pc i.opcode s).pc = .ok i.opcode := by
    rw [memWrite_pc, memRead_memWrite_same hw]
  have himpl : (memWrite s.pc i.opcode s).cfg.impl.contains i.opcode = true := by
    rw [memWrite_cfg]
    exact hi
  rw [step_ready (ready_memWrite hs _ _), fetchExecute_op hfetch himpl, lookup_of_length_one hlen, memWrite_pc]
  rfl

end Sys2Proof.Machine

/-! PROOFS. The encoding family (30_encoding.md): the decoder by the rows of the dispatch table, decoding and encoding
as inverses, the opcode bytes of IMPL, and the branch conditions as bits of F. -/

namespace Sys2Proof.Machine

/-! ## The decoder by the rows of the dispatch table -/

theorem decode_op {op : Byte} {i : Instr} (h : lookup op = some (.op i)) (rest : List Byte) :
    decode (op :: rest) = .ok (i, rest) := by
  simp only [decode, h]

theorem decode_opN {op : Byte} {f : Byte → Instr} (h : lookup op = some (.opN f)) (n : Byte) (rest : List Byte) :
    decode (op :: n :: rest) = .ok (f n, rest) := by
  simp only [decode, h]

theorem decode_opNN {op : Byte} {f : Word → Instr} (h : lookup op = some (.opNN f)) (low high : Byte)
    (rest : List Byte) : decode (op :: low :: high :: rest) = .ok (f (cat high low), rest) := by
  simp only [decode, h]

/-- A byte without a row is refused by name, whatever follows (R90). -/
theorem decode_no_row {op : Byte} (h : lookup op = none) (rest : List Byte) :
    decode (op :: rest) = .error (.unimplemented op) := by
  simp only [decode, h]

/-- What the decoder has read when it answers an instruction: a byte with a row, and the row's operand bytes (R81). -/
theorem decode_ok_cases {bytes rest : List Byte} {i : Instr} (h : decode bytes = .ok (i, rest)) :
    (∃ op, lookup op = some (.op i) ∧ bytes = op :: rest) ∨
    (∃ op f n, lookup op = some (.opN f) ∧ f n = i ∧ bytes = op :: n :: rest) ∨
    (∃ op f low high, lookup op = some (.opNN f) ∧ f (cat high low) = i ∧ bytes = op :: low :: high :: rest) := by
  cases bytes with
  | nil => exact nomatch h
  | cons op tail =>
    cases hl : lookup op with
    | none => rw [decode_no_row hl] at h; exact nomatch h
    | some e =>
      match e, tail with
      | .op j, tail =>
        cases (decode_op hl tail).symm.trans h
        exact .inl ⟨op, hl, rfl⟩
      | .opN f, n :: tail =>
        cases (decode_opN hl n tail).symm.trans h
        exact .inr (.inl ⟨op, f, n, hl, rfl, rfl⟩)
      | .opNN f, low :: high :: tail =>
        cases (decode_opNN hl low high tail).symm.trans h
        exact .inr (.inr ⟨op, f, low, high, hl, rfl, rfl⟩)
      | .opN f, [] | .opNN f, [] | .opNN f, [_] => simp only [decode, hl, reduceCtorEq] at h

/-! ## Decoding and encoding -/

theorem encode_append {i : Instr} {operands : List Byte} (h : i.form.operands = operands) (rest : List Byte) :
    encode i ++ rest = i.opcode :: (operands ++ rest) := by
  rw [encode, h, List.cons_append]

/-- Settles O2, by the three kinds of row: the row at the opcode byte makes the instruction from its operand bytes. -/
theorem decodeOfEncode : Obligations.DecodeOfEncode := by
  intro i rest
  obtain ⟨hl, ho⟩ | ⟨f, n, hl, ho, rfl⟩ | ⟨f, nn, hl, ho, rfl⟩ := lookup_cases i <;> rw [encode_append ho]
  · exact decode_op hl rest
  · exact decode_opN hl n rest
  · have h := decode_opNN hl (lo nn) (hi nn) rest
    rwa [cat_hi_lo] at h

/-- Settles O3: the bytes read are a row's opcode byte and its operand bytes, which the row's instruction encodes
to. -/
theorem encodeOfDecode : Obligations.EncodeOfDecode := by
  intro bytes rest i h
  obtain ⟨op, hl, rfl⟩ | ⟨op, f, n, hl, rfl, rfl⟩ | ⟨op, f, low, high, hl, rfl, rfl⟩ := decode_ok_cases h
  · obtain ⟨hop, ho⟩ := op_row hl
    rw [encode_append ho, hop, List.nil_append]
  · obtain ⟨hop, ho⟩ := opN_row hl n
    rw [encode_append ho, hop, List.singleton_append]
  · obtain ⟨hop, ho⟩ := opNN_row hl (cat high low)
    rw [encode_append ho, hop, lo_cat, hi_cat, List.cons_append, List.singleton_append]

/-- Settles O1: each word is the encoding of its instruction. -/
theorem spelledWordsDecode : Obligations.SpelledWordsDecode :=
  ⟨decodeOfEncode .nop [], decodeOfEncode (.ld_A_n 0x05) [], decodeOfEncode (.ld_HL_nn 0xC003) [],
    decodeOfEncode .ld_B_A [], decodeOfEncode .ld_atDE_A [], decodeOfEncode .ld_atHLdec_A [],
    decodeOfEncode (.ldh_A_n 0x44) [], decodeOfEncode (.jr_NZ_e 0xFC) [], decodeOfEncode (.call_nn 0x015A) [],
    decodeOfEncode .ret_Z [], decodeOfEncode .dec_B [], decodeOfEncode .dec_DE [], decodeOfEncode .xor_A [],
    decodeOfEncode (.and_n 0x0F) [], decodeOfEncode (.cp_n 0x94) [], decodeOfEncode .ei []⟩

/-- The length of a class is its opcode byte and its operand bytes (R82). -/
theorem formLength_eq (F : Form) : formLength F = F.operands.length + 1 := by
  cases F <;> rfl

/-- Settles O5: an instruction is encoded as its opcode byte and the operand bytes of its class. -/
theorem instructionLengths : Obligations.InstructionLengths := by
  intro i
  rw [formLength_eq, Instr.length, encode, List.length_cons]

/-! ## The opcode bytes -/

theorem mem_defaultImpl_iff_lookup {op : Byte} : op ∈ defaultImpl ↔ (lookup op).isSome = true := by
  rw [lookup_isSome, List.contains_iff_mem]

/-- A byte has a row exactly when it is the opcode byte of an instruction (R88, R93). -/
theorem lookup_isSome_iff_opcode {op : Byte} : (lookup op).isSome = true ↔ ∃ i : Instr, i.opcode = op := by
  constructor
  · intro h
    obtain ⟨e, he⟩ := Option.isSome_iff_exists.mp h
    cases e with
    | op i => exact ⟨i, (op_row he).1⟩
    | opN f => exact ⟨f 0, (opN_row he 0).1⟩
    | opNN f => exact ⟨f 0, (opNN_row he 0).1⟩
  · rintro ⟨i, rfl⟩
    obtain ⟨e, he, -⟩ := lookup_opcode i
    rw [he, Option.isSome_some]

/-- Settles O4: the bytes of IMPL are those with a row, and each row is some instruction's. -/
theorem opcodesAreExactlyImpl : Obligations.OpcodesAreExactlyImpl := by
  refine ⟨rfl, by decide, fun op => mem_defaultImpl_iff_lookup.trans lookup_isSome_iff_opcode, ?_⟩
  intro op rest h
  rw [mem_defaultImpl_iff_lookup, Option.not_isSome_iff_eq_none] at h
  exact decode_no_row h rest

/-! ## The branch conditions -/

/-- A mask of one bit tests that bit. -/
theorem and_twoPow_bne_zero (b : Byte) {k : Nat} (hk : k < 8) :
    (b &&& BitVec.twoPow 8 k != 0) = b.getLsbD k := by
  have h0 : BitVec.twoPow 8 k ≠ 0 := fun h => by simpa [hk] using congrArg (·.getLsbD k) h
  rw [BitVec.and_twoPow]
  cases b.getLsbD k
  · rfl
  · simpa using h0

/-- FLAG_Z is bit 7 of F (R30, decision D3). -/
theorem flag_Z (s : State) : s.flag .Z = s.f.getLsbD 7 := and_twoPow_bne_zero s.f (k := 7) (by decide)

/-- FLAG_C is bit 4 of F (R30, decision D3). -/
theorem flag_C (s : State) : s.flag .C = s.f.getLsbD 4 := and_twoPow_bne_zero s.f (k := 4) (by decide)

/-- Settles O34: each condition (decision D9) is a flag or its negation, and C is 0 in every state with
`FlagsOk` (R35). -/
theorem branchConditions : Obligations.BranchConditions := by
  intro s
  refine ⟨?_, ?_, ?_, ?_, fun ⟨_, hc⟩ => ?_⟩
  · rw [cond, flag_Z, Bool.not_eq_true']
  · rw [cond, flag_Z]
  · rw [cond, flag_C, Bool.not_eq_true']
  · rw [cond, flag_C]
  · rw [cond, cond, hc, Bool.not_false]
    exact ⟨rfl, rfl⟩

end Sys2Proof.Machine

/-! PROOFS. The validator family (40_cartridge_validator.md): the checks of `validate` in order, the checksum as a sum
modulo 65536, what one changed byte does to the checks, the title and the read port. -/

namespace Sys2Proof.Machine

/-! ## The three checks -/

theorem signatureOk_iff {img : Image} : signatureOk img = true ↔ img.byte 0x100 = 0xC3 ∧ img.byte 0x101 = 0 := by
  simp only [signatureOk, Bool.and_eq_true, beq_iff_eq]

theorem layoutOk_iff {img : Image} : layoutOk img = true ↔ img.byte 0x147 = 0 ∧ img.byte 0x148 = 0 := by
  simp only [layoutOk, Bool.and_eq_true, beq_iff_eq]

theorem checksumOk_iff {img : Image} : checksumOk img = true ↔ checksum img = declaredChecksum img := by
  rw [checksumOk, beq_iff_eq]

theorem validate_signature_error {img : Image} (h : ¬ signatureOk img = true) :
    validate img = .error .invalidHeaderSignature := by
  simp only [validate, h, Bool.not_false, if_true]

theorem validate_layout_error {img : Image} (hs : signatureOk img = true) (h : ¬ layoutOk img = true) :
    validate img = .error .unsupportedCartridgeLayout := by
  simp [validate, hs, h]

theorem validate_checksum_error {img : Image} (hs : signatureOk img = true) (hl : layoutOk img = true)
    (h : ¬ checksumOk img = true) : validate img = .error .checksumMismatch := by
  simp [validate, hs, hl, h]

/-- Settles O56: each check decides in turn, and with all passed the declared checksum is the sum. -/
theorem validationOrder : Obligations.ValidationOrder := by
  intro img
  refine ⟨fun hs => ?_, fun h0 h1 hl => ?_, fun h0 h1 h2 h3 hc => ?_, fun h0 h1 h2 h3 hc => ?_⟩
  · exact validate_signature_error (mt signatureOk_iff.mp hs)
  · exact validate_layout_error (signatureOk_iff.mpr ⟨h0, h1⟩) (mt layoutOk_iff.mp hl)
  · exact validate_checksum_error (signatureOk_iff.mpr ⟨h0, h1⟩) (layoutOk_iff.mpr ⟨h2, h3⟩)
      (mt checksumOk_iff.mp hc)
  · refine validate_ok_iff.mpr ⟨signatureOk_iff.mpr ⟨h0, h1⟩, layoutOk_iff.mpr ⟨h2, h3⟩, checksumOk_iff.mpr hc, ?_⟩
    rw [cartridgeOf, h2, h3, declaredChecksum, hc]

/-! ## The checksum -/

theorem isChecksumOffset_iff {i : Nat} : isChecksumOffset i = true ↔ i = 0x14E ∨ i = 0x14F := by
  simp only [isChecksumOffset, Bool.or_eq_true, beq_iff_eq]

theorem toNat_checksumTerm (img : Image) (i : Nat) :
    (checksumTerm img i).toNat = if i = 0x14E ∨ i = 0x14F then 0 else (img.byte i).toNat := by
  have hz : (zext (img.byte i)).toNat = (img.byte i).toNat := by
    rw [zext, BitVec.toNat_setWidth, Nat.mod_eq_of_lt (by omega)]
  rw [checksumTerm, apply_ite BitVec.toNat, hz, BitVec.ofNat_eq_ofNat, BitVec.toNat_zero]
  simp only [isChecksumOffset_iff]

/-- The accumulator after `n` offsets is the sum of what they add, modulo 65536 (R107). -/
theorem toNat_checksumUpTo (img : Image) (n : Nat) :
    (checksumUpTo img n).toNat = ((List.range n).map (fun i => (checksumTerm img i).toNat)).sum % 65536 := by
  induction n with
  | zero => rfl
  | succ n ih => rw [checksumUpTo, BitVec.toNat_add, ih, List.sum_range_succ, Nat.mod_add_mod]

theorem Image.ofBytes_len (bytes : List Byte) : (Image.ofBytes bytes).len = bytes.length := rfl

/-- Settles O57: the accumulator runs over the length of the buffer, whose bytes the image holds. -/
theorem checksumIsMaskedSum : Obligations.ChecksumIsMaskedSum := by
  intro bytes
  rw [checksum, toNat_checksumUpTo, Image.ofBytes_len]
  simp only [toNat_checksumTerm, Image.ofBytes_byte]

/-! ## One changed byte -/

section
variable {img img' : Image} {k : Nat} (h : Image.SameBut k img img') (hb : img'.byte k ≠ img.byte k)
include h hb

theorem byte_eq_iff_of_sameBut {i : Nat} : img'.byte i = img.byte i ↔ k ≠ i :=
  ⟨by rintro he rfl; exact hb he, fun hi => h.2 i hi.symm⟩

theorem bytes_eq_iff_of_sameBut {i j : Nat} :
    (img'.byte i = img.byte i ∧ img'.byte j = img.byte j) ↔ ¬ (k = i ∨ k = j) := by
  rw [byte_eq_iff_of_sameBut h hb, byte_eq_iff_of_sameBut h hb, not_or]

/-- A passed signature check still passes unless the changed byte is one of the two it reads (R105). -/
theorem signatureOk_iff_of_sameBut (hs : signatureOk img = true) :
    signatureOk img' = true ↔ ¬ (k = 0x100 ∨ k = 0x101) := by
  obtain ⟨h0, h1⟩ := signatureOk_iff.mp hs
  rw [signatureOk_iff, ← bytes_eq_iff_of_sameBut h hb, h0, h1]

/-- A passed layout check still passes unless the changed byte is one of the two it reads (R106). -/
theorem layoutOk_iff_of_sameBut (hl : layoutOk img = true) :
    layoutOk img' = true ↔ ¬ (k = 0x147 ∨ k = 0x148) := by
  obtain ⟨h0, h1⟩ := layoutOk_iff.mp hl
  rw [layoutOk_iff, ← bytes_eq_iff_of_sameBut h hb, h0, h1]

theorem declaredChecksum_eq_iff_of_sameBut :
    declaredChecksum img' = declaredChecksum img ↔ ¬ isChecksumOffset k = true := by
  rw [isChecksumOffset_iff, ← bytes_eq_iff_of_sameBut h hb, declaredChecksum, declaredChecksum]
  exact ⟨cat_inj, fun ⟨h0, h1⟩ => congrArg₂ cat h0 h1⟩

/-- The sum stays the same exactly when the changed byte is left out of it: different bytes stay different modulo
65536 (R107, R114). -/
theorem checksum_eq_iff_of_sameBut (hlt : k < img.len) :
    checksum img' = checksum img ↔ isChecksumOffset k = true := by
  have hsum : checksum img' + checksumTerm img k = checksum img + checksumTerm img' k := by
    simpa only [checksum, h.1, hlt, if_true] using checksumUpTo_change h.2 img.len
  have hterm : checksumTerm img k = checksumTerm img' k ↔ isChecksumOffset k = true := by
    cases hk : isChecksumOffset k with
    | true => simp only [checksumTerm, hk, if_true]
    | false =>
      simp only [checksumTerm, hk, Bool.false_eq_true, if_false, iff_false]
      exact fun hz => hb (zext_inj hz).symm
  rw [← hterm]
  constructor
  · intro he
    rw [he] at hsum
    exact add_left_cancel hsum
  · intro ht
    rw [ht] at hsum
    exact add_right_cancel hsum

/-- A changed byte changes exactly one of the sum and the declared checksum, so that they no longer agree (R108,
R114). -/
theorem not_checksumOk_of_sameBut (hlt : k < img.len) (hc : checksumOk img = true) : ¬ checksumOk img' = true := by
  rw [checksumOk_iff] at hc ⊢
  intro hc'
  have hd := declaredChecksum_eq_iff_of_sameBut h hb
  rw [← hc, ← hc', checksum_eq_iff_of_sameBut h hb hlt] at hd
  exact iff_not_self hd

end

/-- Settles O58: the changed byte fails the first check that reads it, and the checksum check reads every byte. -/
theorem oneChangedByteFailsValidation : Obligations.OneChangedByteFailsValidation := by
  intro img img' c k hv hlt h hb
  obtain ⟨hs, hl, hc, -⟩ := validate_ok_iff.mp hv
  have hs' := signatureOk_iff_of_sameBut h hb hs
  have hl' := layoutOk_iff_of_sameBut h hb hl
  split_ifs with hsig hlay
  · exact validate_signature_error fun ht => hs'.mp ht hsig
  · exact validate_layout_error (hs'.mpr hsig) fun ht => hl'.mp ht hlay
  · exact validate_checksum_error (hs'.mpr hsig) (hl'.mpr hlay) (not_checksumOk_of_sameBut h hb hlt hc)

/-! ## The title -/

/-- The 16 bytes of the title field (R103). -/
def titleField (img : Image) : List Byte := (List.range 16).map (fun i => img.byte (0x134 + i))

theorem titleField_length (img : Image) : (titleField img).length = 16 := by
  rw [titleField, List.length_map, List.length_range]

theorem titleField_getElem {img : Image} {j : Nat} (h : j < (titleField img).length) :
    (titleField img)[j] = img.byte (0x134 + j) := by
  simp only [titleField, List.getElem_map, List.getElem_range]

/-- The index of the first zero byte of the title field, or 16. -/
def titleEnd (img : Image) : Nat := (titleField img).findIdx (fun v => v == 0)

theorem titleEnd_le (img : Image) : titleEnd img ≤ 16 := by
  rw [← titleField_length img]
  exact List.findIdx_le_length

theorem byte_ne_zero_of_lt_titleEnd {img : Image} {j : Nat} (h : j < titleEnd img) : img.byte (0x134 + j) ≠ 0 := by
  have hz := List.not_of_lt_findIdx h
  rwa [titleField_getElem, beq_eq_false_iff_ne] at hz

theorem byte_titleEnd {img : Image} (h : titleEnd img < 16) : img.byte (0x134 + titleEnd img) = 0 := by
  rw [← titleField_length img] at h
  have hz : ((titleField img)[titleEnd img] == 0) = true := List.findIdx_getElem (w := h)
  rwa [titleField_getElem, beq_iff_eq] at hz

/-- The title is the field up to its first zero byte (R112). -/
theorem imageTitle_eq_take (img : Image) : imageTitle img = (titleField img).take (titleEnd img) := by
  simp only [imageTitle, titleField, titleEnd, List.takeWhile_eq_take_findIdx_not, bne, Bool.not_not]

theorem imageTitle_length (img : Image) : (imageTitle img).length = titleEnd img := by
  rw [imageTitle_eq_take, List.length_take, titleField_length, Nat.min_eq_left (titleEnd_le img)]

theorem imageTitle_getElem? {img : Image} {j : Nat} (h : j < titleEnd img) :
    (imageTitle img)[j]? = some (img.byte (0x134 + j)) := by
  have hj : j < (titleField img).length := (titleField_length img).symm ▸ h.trans_le (titleEnd_le img)
  rw [imageTitle_eq_take, List.getElem?_take_of_lt h, List.getElem?_eq_getElem hj, titleField_getElem]

/-- Settles O60: the title ends at the first zero byte of its field (decision D15). -/
theorem titleRunsToFirstZero : Obligations.TitleRunsToFirstZero := by
  intro img
  rw [imageTitle_length]
  exact ⟨titleEnd_le img, fun j hj => ⟨imageTitle_getElem? hj, byte_ne_zero_of_lt_titleEnd hj⟩, byte_titleEnd⟩

/-! ## The read port -/

theorem cartRead8_mod (v : Validator) (addr : Nat) : cartRead8 v (addr % 65536) = cartRead8 v addr := by
  simp only [cartRead8, Nat.mod_mod]

theorem cartRead8_notLoaded {v : Validator} (h : v.isLoaded = false) (addr : Nat) :
    cartRead8 v addr = .error .cartridgeNotLoaded := by
  cases v with
  | unloaded | failed => rfl
  | loaded c => exact nomatch h

/-- Settles O59: the port masks its address (R110), the mask of a masked address changes nothing, and a word is two
byte reads (R111). -/
theorem readPortWraps : Obligations.ReadPortWraps := by
  intro v addr
  refine ⟨?_, fun h => ?_, ?_, fun low high hl hh => ?_⟩
  · rw [← cartRead8_mod, Nat.add_mod_right, cartRead8_mod]
  · simp only [cartRead16, cartRead8_notLoaded h, and_self]
  · rintro c rfl h
    rw [← cartRead8_mod]
    exact cartRead8_loaded h
  · rw [cartRead8_mod] at hh
    simp only [cartRead16, hl, hh]

end Sys2Proof.Machine

/-! PROOFS. The engine family (41_engine.md): the tick by the state of the engine, the executing tick as fetch and
decode, the ticks an instruction occupies, the trace port, and the fault latch. -/

namespace Sys2Proof.Machine

/-! ## The tick by the state of the engine -/

theorem step_refused {s : State} (hb : s.begun = false) : step s = .refused .tickBeforeBegin := by
  simp [step, tick, hb]

theorem step_latched {s : State} {r : Fault} (hb : s.begun = true) (hf : s.flt = some r) : step s = .next s := by
  simp [step, tick, hb, hf]

theorem step_idle {s : State} (hb : s.begun = true) (hf : s.flt = none) (hp : 0 < s.pend) :
    step s = .next (setPend (s.pend - 1) s) := by
  simp [step, tick, hb, hf, Nat.ne_of_gt hp]

/-- Settles O11. -/
theorem latchedFaultStopsEngine : Obligations.LatchedFaultStopsEngine :=
  fun _ _ => step_latched

/-- Settles O10: the idle cycle is one write of PEND. -/
theorem idleTickOnlyCountsDown : Obligations.IdleTickOnlyCountsDown :=
  fun _ => step_idle

/-! ## The executing tick -/

/-- Reading a byte and those after it (R80): the first stands at the address, the others from the next one on. -/
theorem readBytes_cons {s : State} {a : Word} {n : Nat} {v : Byte} {vs : List Byte}
    (h : readBytes s a n = .ok (v :: vs)) :
    ∃ m, memRead s a = .ok v ∧ readBytes s (a + 1) m = .ok vs := by
  cases n with
  | zero => exact nomatch h
  | succ m =>
    rw [readBytes] at h
    cases hv : memRead s a with
    | error r => rw [hv] at h; exact nomatch h
    | ok u =>
      cases hvs : readBytes s (a + 1) m with
      | error r => rw [hv, hvs] at h; exact nomatch h
      | ok us => rw [hv, hvs] at h; cases h; exact ⟨m, rfl, hvs⟩

theorem length_eq_operands (i : Instr) : i.length = i.form.operands.length + 1 := rfl

/-- Settles O6, by the three kinds of row the decoder can have used: the executing tick reads the same bytes and makes
the same instruction of them. -/
theorem stepRunsDecodedInstruction : Obligations.StepRunsDecodedInstruction := by
  intro s bytes i hs hr hd hi
  rw [step_ready hs]
  obtain ⟨op, hl, rfl⟩ | ⟨op, f, n, hl, rfl, rfl⟩ | ⟨op, f, low, high, hl, rfl, rfl⟩ := decode_ok_cases hd
  · obtain ⟨rfl, ho⟩ := op_row hl
    obtain ⟨_, hop, -⟩ := readBytes_cons hr
    rw [fetchExecute_op hop hi, hl, length_eq_operands, ho]
    rfl
  · obtain ⟨rfl, ho⟩ := opN_row hl n
    obtain ⟨_, hop, hr⟩ := readBytes_cons hr
    obtain ⟨_, hn, -⟩ := readBytes_cons hr
    simp only [fetchExecute_op hop hi, hl, hn, length_eq_operands, ho]
    rfl
  · obtain ⟨rfl, ho⟩ := opNN_row hl (cat high low)
    obtain ⟨_, hop, hr⟩ := readBytes_cons hr
    obtain ⟨_, hlow, hr⟩ := readBytes_cons hr
    obtain ⟨_, hhigh, -⟩ := readBytes_cons hr
    rw [show s.pc + 1 + 1 = s.pc + 2 by bv_omega] at hhigh
    simp only [fetchExecute_op hop hi, hl, hlow, hhigh, length_eq_operands, ho]
    rfl

/-! ## The ticks an instruction occupies -/

/-- The cost of an instruction does not depend on its immediate operand. -/
theorem formCost_form_eq_rowForm (k : Cost) (taken : Bool) (i : Instr) :
    formCost k taken i.form = formCost k taken (rowForm i.opcode) := by
  cases i <;> rfl

/-- Instructions with one opcode byte cost the same, and wherever PC stands. -/
theorem formCost_eq_of_opcode {i j : Instr} (h : j.opcode = i.opcode) (k : Cost) (v : Word) (s : State) :
    formCost k (transfers (setPc v s) j.form) j.form = formCost k (transfers s i.form) i.form := by
  rw [transfers_setPc, transfers_form_eq_rowForm, formCost_form_eq_rowForm, h, ← transfers_form_eq_rowForm,
    ← formCost_form_eq_rowForm]

theorem formCost_pos {k : Cost} (h : k.positive = true) (taken : Bool) (F : Form) : 1 ≤ formCost k taken F := by
  refine of_decide_eq_true (List.all_eq_true.mp h _ ?_)
  cases F <;> cases taken <;> simp [formCost]

theorem run_succ_of_step {s t : State} (h : step s = .next t) (n : Nat) :
    Sys2Proof.core.run (n + 1) s = Sys2Proof.core.run n t := by
  simp only [Host.Core.run, Sys2Proof.core, h]

/-- As many idle ticks as PEND says bring it to 0 and change nothing else (R123). -/
theorem run_pend (n : Nat) : ∀ {s : State}, s.begun = true → s.flt = none → s.pend = n →
    Sys2Proof.core.run n s = .next (setPend 0 s) := by
  induction n with
  | zero =>
    intro s _ _ hp
    rw [show setPend 0 s = s from hp ▸ rfl]
    rfl
  | succ n ih =>
    intro s hb hf hp
    rw [run_succ_of_step (step_idle hb hf (by omega))]
    exact ih hb hf (by rw [setPend_pend, hp, Nat.add_sub_cancel])

/-- Settles O13: the executing tick writes PEND, and the idle ticks count it down. -/
theorem costOccupiesThatManyTicks : Obligations.CostOccupiesThatManyTicks := by
  refine ⟨fun _ _ _ => exec_pend, fun s t i hs hm h => ?_⟩
  have ⟨hb, hf, _⟩ := hs
  obtain ⟨j, hj, he⟩ := step_ready_next hs hm h
  obtain ⟨hflt, -, -, hbegun⟩ := exec_keeps_system he
  have hpend := (exec_pend he).trans (congrArg (· - 1) (formCost_eq_of_opcode hj s.cfg.cost _ s))
  refine ⟨hpend, fun hpos => ?_⟩
  obtain ⟨n, hn⟩ := Nat.exists_eq_add_of_le' (formCost_pos hpos (transfers s i.form) i.form)
  rw [hn] at hpend ⊢
  rw [run_succ_of_step h]
  exact run_pend n (hbegun.trans hb) (hflt.trans hf) hpend

/-! ## The trace port: no read sees the trace parameter, and every write commutes with it -/

section
variable (b : Bool) (s : State)

@[simp] theorem withTrace_a : (withTrace b s).a = s.a := rfl

@[simp] theorem withTrace_sp : (withTrace b s).sp = s.sp := rfl

@[simp] theorem withTrace_pc : (withTrace b s).pc = s.pc := rfl

@[simp] theorem reg_withTrace (r : Reg8) : (withTrace b s).reg r = s.reg r := rfl

@[simp] theorem pair_withTrace (p : Pair) : (withTrace b s).pair p = s.pair p := rfl

@[simp] theorem cond_withTrace (c : Cond) : cond (withTrace b s) c = cond s c := rfl

@[simp] theorem memRead_withTrace (w : Word) : memRead (withTrace b s) w = memRead s w := rfl

@[simp] theorem setPc_withTrace (v : Word) : setPc v (withTrace b s) = withTrace b (setPc v s) := rfl

@[simp] theorem setSp_withTrace (v : Word) : setSp v (withTrace b s) = withTrace b (setSp v s) := rfl

@[simp] theorem setFlag_withTrace (x : Flag) (v : Bool) :
    setFlag x v (withTrace b s) = withTrace b (setFlag x v s) := rfl

@[simp] theorem setReg_withTrace (r : Reg8) (v : Byte) :
    setReg r v (withTrace b s) = withTrace b (setReg r v s) := by
  cases r <;> rfl

@[simp] theorem setPair_withTrace (p : Pair) (v : Word) :
    setPair p v (withTrace b s) = withTrace b (setPair p v s) := by
  simp only [setPair, setReg_withTrace]

/-- The address decoder does not read the trace parameter (R55). -/
@[simp] theorem memWrite_withTrace (w : Word) (v : Byte) :
    memWrite w v (withTrace b s) = withTrace b (memWrite w v s) := by
  have hr : region (withTrace b s).cfg w = region s.cfg w := rfl
  have hio : (withTrace b s).cfg.ioBacking = s.cfg.ioBacking := rfl
  rw [memWrite, memWrite, hr]
  cases region s.cfg w with
  | io => simp only [ioWrite, hio]; cases s.cfg.ioBacking <;> rfl
  | _ => rfl

@[simp] theorem push16_withTrace (v : Word) : push16 v (withTrace b s) = withTrace b (push16 v s) := by
  simp [push16_eq]

theorem effect_withTrace (w : Word) (F : Form) : effect (withTrace b s) w F = withTrace b (effect s w F) := by
  cases F with
  | jr c _ | retCc c => cases hc : cond s c <;> simp [effect, hc]
  | andR | andN | xorR | xorN | cpR | cpN | di | ei => rfl
  | _ => simp [effect]

/-- No meaning reads the trace parameter: what it reads, costs and does is the same without the port. -/
theorem exec_withTrace (i : Instr) : exec i (withTrace b s) = mapNext (withTrace b) (exec i s) := by
  have hread : dataRead (withTrace b s) i.form = dataRead s i.form := rfl
  rw [exec_eq_outcome, exec_eq_outcome, hread]
  cases dataRead s i.form with
  | error r => rfl
  | ok w => exact congrArg (Host.Outcome.next ∘ setPend _) (effect_withTrace b s w i.form)

/-- The executing tick fetches and runs the same instruction with the port and without (R125). -/
theorem fetchExecute_withTrace : fetchExecute (withTrace b s) = mapNext (withTrace b) (fetchExecute s) := by
  cases hm : memRead s s.pc with
  | error r => simp only [fetchExecute, withTrace_pc, memRead_withTrace, hm]; rfl
  | ok op =>
    cases hc : s.cfg.impl.contains op with
    | false => rw [fetchExecute_other hm hc, fetchExecute_other (s := withTrace b s) hm hc]; rfl
    | true =>
      rw [fetchExecute_op hm hc, fetchExecute_op (s := withTrace b s) hm hc]
      simp only [withTrace_pc, memRead_withTrace, setPc_withTrace, exec_withTrace]
      cases lookup op with
      | none => rfl
      | some e =>
        cases e with
        | op i => rfl
        | opN f => cases memRead s (s.pc + 1) <;> rfl
        | opNN f =>
          cases memRead s (s.pc + 1) with
          | error r => rfl
          | ok low => cases memRead s (s.pc + 2) <;> rfl

theorem step_withTrace : step (withTrace b s) = mapNext (withTrace b) (step s) := by
  cases hb : s.begun with
  | false => rw [step_refused hb, step_refused (s := withTrace b s) hb]; rfl
  | true =>
    cases hf : s.flt with
    | some r => rw [step_latched hb hf, step_latched (s := withTrace b s) hb hf]; rfl
    | none =>
      obtain hp | hp := Nat.eq_zero_or_pos s.pend
      · rw [step_ready ⟨hb, hf, hp⟩, step_ready (s := withTrace b s) ⟨hb, hf, hp⟩, fetchExecute_withTrace]
      · rw [step_idle hb hf hp, step_idle (s := withTrace b s) hb hf hp]; rfl

end

/-- Settles O16: the step commutes with the trace parameter, and the port reads off the state what the fetch and the
dispatch table would find. -/
theorem tracePortOnlyObserves : Obligations.TracePortOnlyObserves := by
  refine ⟨fun s b => step_withTrace b s, ?_, ?_⟩
  · rintro s i ht ⟨hb, hf, hp⟩ hm hi
    have hrow : (lookup i.opcode).isSome = true := lookup_isSome_iff_opcode.mpr ⟨i, rfl⟩
    have himpl : s.cfg.impl.contains i.opcode = true := hi
    simp only [tracePort, ht, hb, hf, hp, hm, himpl, hrow]
    rfl
  · rintro s (ht | hp)
    · simp [tracePort, ht]
    · simp [tracePort, Nat.ne_of_gt hp]

/-! ## The fault latch -/

theorem hostTick_of_fault {s : State} {r : Fault} (h : step s = .fault r) (k : Nat) :
    hostTick s k = .answer (.core (latchFault r k s) (k + 1)) (.fault r) := by
  have ht : tick s = .fault r := h
  rw [hostTick, ht]

/-- `begin` on a loaded cartridge makes the engine ready, whatever was latched (R210, R232). -/
theorem ready_beginOp {s : State} (h : s.cv.isLoaded = true) : (beginOp s).ready := by
  cases hv : s.cv with
  | unloaded | failed => rw [hv] at h; exact nomatch h
  | loaded c =>
    have hstart : startVector (resetOp s).cv = _ := (congrArg startVector hv).trans (startVector_loaded c)
    simp only [beginOp, hstart]
    exact ⟨rfl, rfl, rfl⟩

/-- Settles O26: a tick can fault only after `begin` (R122), so the latched state is one in which the engine does
nothing. -/
theorem faultIsLatchedUntilReset : Obligations.FaultIsLatchedUntilReset := by
  intro s k r h
  obtain ⟨⟨hb, -, -⟩, -⟩ := step_fault_cases h
  obtain ⟨hflt, hpend, hwram, hime, hcv, hcfg, hbegun, -⟩ := latchFault_keeps r k s
  exact ⟨latchFault r k s, hostTick_of_fault h k, hflt, hpend, hwram, hime, hcv, hcfg,
    step_latched (hbegun.trans hb) hflt, rfl, ready_beginOp⟩

end Sys2Proof.Machine

/-! PROOFS. The control transfer family (42_control_transfer.md): jumps, the call with what its push leaves in memory,
and the two returns, which share one pop of PC. -/

namespace Sys2Proof.Machine

/-- An instruction of a class runs that class's body. -/
theorem exec_of_form {i : Instr} {F : Form} (h : i.form = F) (s : State) : exec i s = execForm s F := by
  rw [exec_eq_execForm, h]

/-! ## Jumps -/

/-- Settles O32. -/
theorem jumpAbsolute : Obligations.JumpAbsolute :=
  fun _ _ s hi => exec_of_form hi s

theorem jumpRel_taken {c : Cond} {s : State} (hc : cond s c = true) (e : Byte) :
    jumpRel c e s = .next (setPend (s.cfg.cost.jrTaken - 1) (setPc (s.pc + sext e) s)) :=
  if_pos hc

theorem jumpRel_not_taken {c : Cond} {s : State} (hc : cond s c = false) (e : Byte) :
    jumpRel c e s = .next (setPend (s.cfg.cost.jrNotTaken - 1) s) :=
  if_neg (by simp [hc])

/-- Settles O33: adding the sign-extended byte adds the displacement as an integer modulo 65536. -/
theorem jumpRelative : Obligations.JumpRelative := by
  intro i c e s hi
  rw [exec_of_form hi]
  exact ⟨fun hc => ⟨s.pc + sext e, toNat_add_sext s.pc e, jumpRel_taken hc e⟩, fun hc => jumpRel_not_taken hc e⟩

/-! ## The call -/

/-- A push with neither byte in Working Memory and nothing attached only moves SP (R58, R64). -/
theorem push16_dropped {s : State} (hio : s.cfg.ioBacking = .none) (h1 : region s.cfg (s.sp - 1) ≠ .wram)
    (h2 : region s.cfg (s.sp - 2) ≠ .wram) (v : Word) : push16 v s = setSp (s.sp - 2) s := by
  rw [push16_eq, memWrite_dropped (s := setSp (s.sp - 1) s) h1 hio]
  exact memWrite_dropped (s := setSp (s.sp - 2) s) h2 hio _

/-- Settles O35: the call is a push and a write of PC; the push says what stands at the two addresses, and neither
touches a register, a flag or the system. -/
theorem callPushesReturnAddress : Obligations.CallPushesReturnAddress := by
  intro i nn s hi
  have hexec : exec i s = .next (setPend (s.cfg.cost.call - 1) (setPc nn (push16 s.pc s))) := exec_of_form hi s
  refine ⟨_, hexec, rfl, push16_sp s s.pc, rfl, fun h => ?_, fun h => ?_, fun hio h1 h2 => ?_, ?_, ?_, ?_,
    exec_keeps_system hexec⟩
  · rw [memRead_setPend, memRead_setPc, memRead_push16_high h]
  · rw [memRead_setPend, memRead_setPc, memRead_push16_low h]
  · rw [setPend_wram, setPc_wram, push16_dropped hio h1 h2, setSp_wram]
  · simp [RegsKept]
  · simp [FlagsKept]
  · simp

/-! ## Returns: PC is the word popped, or the pop faults (R65, decision D19) -/

section
variable {s : State} {low : Byte} (n : Nat)

theorem popPc_of_bytes {high : Byte} (hl : memRead s s.sp = .ok low) (hh : memRead s (s.sp + 1) = .ok high) :
    popPc n s = .next (setPend (n - 1) (setPc (cat high low) (setSp (s.sp + 2) s))) := by
  simp only [popPc_eq, hl, hh]

theorem popPc_first_fault {r : Fault} (hr : memRead s s.sp = .error r) : popPc n s = .fault r := by
  simp only [popPc_eq, hr]

theorem popPc_second_fault {r : Fault} (hl : memRead s s.sp = .ok low) (hr : memRead s (s.sp + 1) = .error r) :
    popPc n s = .fault r := by
  simp only [popPc_eq, hl, hr]

end

/-- Settles O36: RET is the pop of PC at its own cost. -/
theorem returnPopsAddress : Obligations.ReturnPopsAddress := by
  intro i s hi
  have hexec : exec i s = popPc s.cfg.cost.ret s := exec_of_form hi s
  rw [hexec]
  exact ⟨fun _ _ => popPc_of_bytes _, fun _ => popPc_first_fault _, fun _ _ => popPc_second_fault _⟩

theorem returnIf_taken {c : Cond} {s : State} (hc : cond s c = true) : returnIf c s = popPc s.cfg.cost.retTaken s :=
  if_pos hc

theorem returnIf_not_taken {c : Cond} {s : State} (hc : cond s c = false) :
    returnIf c s = .next (setPend (s.cfg.cost.retNotTaken - 1) s) :=
  if_neg (by simp [hc])

/-- Settles O37: by the condition, the pop of PC at the taken cost, or nothing but PEND. -/
theorem conditionalReturn : Obligations.ConditionalReturn := by
  intro i c s hi
  have hexec : exec i s = returnIf c s := exec_of_form hi s
  rw [hexec]
  cases hc : cond s c with
  | false => exact ⟨nofun, nofun, nofun, fun _ => returnIf_not_taken hc⟩
  | true =>
    rw [returnIf_taken hc]
    exact ⟨fun _ _ _ => popPc_of_bytes _, fun _ _ => popPc_first_fault _, fun _ _ _ => popPc_second_fault _, nofun⟩

end Sys2Proof.Machine

/-! PROOFS. The load family (43_loads.md): the frame of memory, the frame of the instructions that only move or compute
data, the loads and stores of registers and pairs, and the two high-page instructions. -/

namespace Sys2Proof.Machine

/-! ## The frame of memory -/

/-- A meaning leaves every address it does not store to as it was, outside an attached device (R158). -/
theorem memRead_effect_of_notMem {s : State} {F : Form} {x : Word} (hx : x ∉ storedAddresses s F)
    (hio : s.cfg.ioBacking = .none ∨ region s.cfg x ≠ .io) (w : Word) :
    memRead (effect s w F) x = memRead s x := by
  cases F with
  | ldAtRRA | ldhNA => exact memRead_memWrite_other (List.ne_of_not_mem_cons hx) hio s.a
  | ldAtHLdecA =>
    simp only [effect, memRead_setFlag, memRead_setPair]
    exact memRead_memWrite_other (List.ne_of_not_mem_cons hx) hio s.a
  | call =>
    have hhigh := List.ne_of_not_mem_cons hx
    have hlow := List.ne_of_not_mem_cons (List.not_mem_of_not_mem_cons hx)
    rw [effect, memRead_setPc, memRead_push16_other hhigh hlow hio]
  | jr c _ | retCc c => cases hc : cond s c <;> simp [effect, hc]
  | di | ei => exact memRead_congr rfl rfl rfl rfl x
  | _ => simp [effect, andAcc, xorAcc, cpAcc]

/-- A meaning that stores nothing touches neither Working Memory nor the device (R158). -/
theorem effect_keeps_storage {s : State} {F : Form} (hF : storedAddresses s F = []) (w : Word) :
    (effect s w F).wram = s.wram ∧ (effect s w F).ioDev = s.ioDev := by
  cases F with
  | ldAtRRA | ldhNA | ldAtHLdecA | call => exact nomatch hF
  | jr c _ | retCc c => cases hc : cond s c <;> simp [effect, hc]
  | _ => simp [effect, andAcc, xorAcc, cpAcc]

theorem exec_keeps_storage {i : Instr} {s t : State} (h : exec i s = .next t) (hi : storedAddresses s i.form = []) :
    t.wram = s.wram ∧ t.ioDev = s.ioDev := by
  obtain ⟨w, -, rfl⟩ := exec_next h
  exact effect_keeps_storage hi w

/-- An instruction that stores nothing leaves every address as it was, an attached device included. -/
theorem exec_keeps_memory {i : Instr} {s t : State} (h : exec i s = .next t) (hi : storedAddresses s i.form = []) :
    MemoryKept s t := by
  obtain ⟨-, hcv, hcfg, -⟩ := exec_keeps_system h
  obtain ⟨hwram, hdev⟩ := exec_keeps_storage h hi
  exact memRead_congr hwram hcv hcfg hdev

/-- Settles O55: the stored addresses are those of the effects, and writing PEND touches no memory. -/
theorem memoryFrame : Obligations.MemoryFrame := by
  refine fun i s t h => ⟨fun x hx hio => ?_, fun hi => ⟨exec_keeps_memory h hi, exec_keeps_storage h hi⟩⟩
  obtain ⟨w, -, rfl⟩ := exec_next h
  rw [memRead_setPend, memRead_effect_of_notMem hx hio]

/-- An instruction that stores to one address leaves every other as it was. -/
theorem exec_keeps_memory_but {i : Instr} {s t : State} {w : Word} (h : exec i s = .next t)
    (hi : storedAddresses s i.form = [w]) : MemoryKeptBut w s t :=
  fun x hx => (memoryFrame i s t h).1 x (by rwa [hi, List.mem_singleton])

/-! ## The frame of an instruction that only moves or computes data -/

/-- The classes that neither transfer control nor use the stack nor write IME. -/
def onlyData : Form → Bool
  | .jr _ _ | .jp _ | .call _ | .ret | .retCc _ | .di | .ei => false
  | _ => true

theorem transfers_of_onlyData {F : Form} (hF : onlyData F = true) (s : State) : transfers s F = false := by
  cases F with
  | jr | jp | call | ret | retCc => exact nomatch hF
  | _ => rfl

/-- What such an instruction keeps: the registers outside its class, SP, PC, IME and the system; PEND is its cost less
the cycle of the fetch. -/
theorem exec_frame {i : Instr} {F : Form} {s t : State} (hi : i.form = F) (hF : onlyData F = true)
    (h : exec i s = .next t) :
    RegsKept (regsWritten F) s t ∧ t.sp = s.sp ∧ t.pc = s.pc ∧ t.ime = s.ime ∧
      t.pend = formCost s.cfg.cost false F - 1 ∧ SystemKept s t := by
  subst hi
  obtain ⟨hregs, hsp, hime, hsys⟩ := registersWritten i s t h
  have ht := transfers_of_onlyData hF s
  have hne : ∀ G : Form, onlyData G = false → i.form ≠ G := fun G hG he => by
    rw [he, hG] at hF
    exact nomatch hF
  refine ⟨hregs, hsp (fun _ => hne _ rfl) (hne _ rfl) (fun c hc => absurd hc (hne _ rfl)), exec_pc h ht,
    hime (hne _ rfl) (hne _ rfl), ?_, hsys⟩
  rw [exec_pend h, ht]

/-- The flags R34's table gives no value for, and bits 3 to 0 of F, are unchanged. -/
theorem exec_keeps_flags {i : Instr} {F : Form} {s t : State} {written : List Flag} (hi : i.form = F)
    (h : exec i s = .next t) (hw : ∀ x, x ∉ written → flagWritten s F x = none) : FlagsKept written s t := by
  subst hi
  obtain ⟨hflag, hlow⟩ := flagTable i s t h
  refine ⟨fun x hx => ?_, hlow⟩
  rw [hflag, hw x hx, Option.getD_none]

/-! ## Loads of registers and pairs -/

/-- Settles O39: Z is computed from the immediate, and R34's table writes no other flag. -/
theorem loadRegisterImmediate : Obligations.LoadRegisterImmediate := by
  intro i r n s hi
  have h : exec i s = .next (setPend (s.cfg.cost.ldRN - 1) (setFlag .Z (n == 0) (setReg r n s))) :=
    exec_of_form hi s
  obtain ⟨hregs, hsp, hpc, hime, hpend, hsys⟩ := exec_frame hi rfl h
  refine ⟨_, h, by simp, ?_, hregs, exec_keeps_flags hi h (fun x hx => ?_), hsp, hpc, hime, hpend, hsys,
    exec_keeps_memory h (by rw [hi]; rfl)⟩
  · rw [flag_setPend, flag_setFlag, if_pos rfl, beq_iff_eq, byte_eq_zero_iff]
  · cases x with
    | Z => exact absurd (List.mem_singleton.mpr rfl) hx
    | N | H | C => rfl

/-- Settles O40: the halves of the pair are the halves of the immediate. -/
theorem loadPairImmediate : Obligations.LoadPairImmediate := by
  intro i p nn s hi
  have h : exec i s = .next (setPend (s.cfg.cost.ldRRNN - 1) (setPair p nn s)) := exec_of_form hi s
  obtain ⟨hregs, hsp, hpc, hime, hpend, hsys⟩ := exec_frame hi rfl h
  refine ⟨_, h, ?_, ?_, by simp, hregs, by simp, hsp, hpc, hime, hpend, hsys, exec_keeps_memory h (by rw [hi]; rfl)⟩
  · rw [reg_setPend, reg_setPair, if_neg (pair_high_ne_low p), if_pos rfl, toNat_hi]
  · rw [reg_setPend, reg_setPair, if_pos rfl, toNat_lo]

/-- Settles O41: one register write, of what the source held before. -/
theorem loadRegisterRegister : Obligations.LoadRegisterRegister := by
  intro i r r' s hi
  have h : exec i s = .next (setPend (s.cfg.cost.ldRR - 1) (setReg r (s.reg r') s)) := exec_of_form hi s
  obtain ⟨hregs, hsp, hpc, hime, hpend, hsys⟩ := exec_frame hi rfl h
  exact ⟨_, h, by simp, hregs, by simp, hsp, hpc, hime, hpend, hsys, exec_keeps_memory h (by rw [hi]; rfl)⟩

/-! ## Stores of the accumulator -/

/-- Settles O42: the store is one byte write. -/
theorem storeAccumulatorThroughPair : Obligations.StoreAccumulatorThroughPair := by
  intro i p s hi
  have h : exec i s = .next (setPend (s.cfg.cost.ldAtRRA - 1) (memWrite (s.pair p) s.a s)) := exec_of_form hi s
  obtain ⟨hregs, hsp, hpc, hime, hpend, hsys⟩ := exec_frame hi rfl h
  refine ⟨_, h, fun hr => ?_, fun hio hr => ?_, exec_keeps_memory_but h (by rw [hi]; rfl), hregs, by simp, hsp, hpc,
    hime, hpend, hsys⟩
  · rw [memRead_setPend, memRead_memWrite_same hr]
  · rw [memWrite_dropped hr hio]
    exact ⟨rfl, rfl⟩

/-- One less, as a number modulo 65536 (R7). -/
theorem toNat_sub_one (v : Word) : (v - 1).toNat = (v.toNat + 65535) % 65536 := by
  rw [BitVec.toNat_sub, Nat.add_comm]
  rfl

/-- Settles O43: the byte is written at the old HL, and what follows the write touches no memory. -/
theorem storeAccumulatorThenDecrement : Obligations.StoreAccumulatorThenDecrement := by
  intro i s hi
  have h : exec i s = .next (setPend (s.cfg.cost.ldAtHLDecA - 1) (setFlag .N true
      (setFlag .Z (s.pair .HL - 1 == 0) (setPair .HL (s.pair .HL - 1) (memWrite (s.pair .HL) s.a s))))) :=
    exec_of_form hi s
  obtain ⟨hregs, hsp, hpc, hime, hpend, hsys⟩ := exec_frame hi rfl h
  refine ⟨_, h, fun hr => ?_, fun hio hr => ?_, exec_keeps_memory_but h (by rw [hi]; rfl), ?_, ?_, by simp,
    exec_keeps_flags hi h (fun x hx => ?_), hregs, hsp, hpc, hime, hpend, hsys⟩
  · simp only [memRead_setPend, memRead_setFlag, memRead_setPair, memRead_memWrite_same hr]
  · simp [memWrite_dropped hr hio]
  · simp only [pair_setPend, pair_setFlag, pair_setPair, toNat_sub_one]
  · rw [← word_eq_zero_iff]
    simp
  · cases x with
    | Z | N => exact absurd (by decide) hx
    | H | C => rfl

/-! ## The high page -/

/-- The effective address as the spec's sum (R156, R157): the `or` never carries. -/
theorem highPage_eq_add (n : Byte) : highPage n = 0xFF00 + n.setWidth 16 := by
  have := n.isLt
  apply BitVec.eq_of_toNat_eq
  rw [highPage_toNat]
  simp
  omega

/-- Every offset of the high page is in the I/O window, Working Memory ending below it (R54). -/
theorem region_highPage {cfg : Config} (h : cfg.wramSizeOk = true) (n : Byte) : region cfg (highPage n) = .io := by
  rw [region_eq_io h, highPage_toNat]
  exact Nat.le_add_right ..

theorem memWrite_io {s : State} {w : Word} (h : region s.cfg w = .io) (v : Byte) : memWrite w v s = ioWrite s w v := by
  simp only [memWrite, h]

/-- A write to the I/O window changes the device state at most (R54, log 6). -/
theorem ioWrite_eq_setDev (s : State) (w : Word) (v : Byte) : ∃ d, ioWrite s w v = { s with ioDev := d } := by
  unfold ioWrite
  cases s.cfg.ioBacking with
  | none => exact ⟨s.ioDev, rfl⟩
  | device readable => exact ⟨_, rfl⟩

/-- Settles O44: the store is a write to the I/O window, dropped where nothing is attached. -/
theorem highPageStore : Obligations.HighPageStore := by
  intro i n s hi hw
  have h : exec i s = .next (setPend (s.cfg.cost.ldhNA - 1) (memWrite (highPage n) s.a s)) := exec_of_form hi s
  have hr := region_highPage hw n
  refine ⟨highPage_toNat n, fun hio => ?_, ?_⟩
  · rw [h, memWrite_dropped (by rw [hr]; decide) hio]
    rfl
  · obtain ⟨d, hd⟩ := ioWrite_eq_setDev s (highPage n) s.a
    rw [h, memWrite_io hr, hd]
    exact ⟨d, rfl⟩

/-- An attached device answers at its readable offsets (log 6). -/
theorem ioRead_readable {s : State} {readable : List Byte} {w : Word} (h : s.cfg.ioBacking = .device readable)
    (hw : lo w ∈ readable) : ioRead s w = .ok (Config.deviceRead s.ioDev (lo w)) := by
  simp [ioRead, h, hw]

theorem ioRead_not_readable {s : State} {readable : List Byte} {w : Word} (h : s.cfg.ioBacking = .device readable)
    (hw : lo w ∉ readable) : ioRead s w = .error (.unmappedAddress w) := by
  simp [ioRead, h, hw]

theorem loadHigh_of_byte {n v : Byte} {s : State} (h : memRead s (highPage n) = .ok v) :
    loadHigh n s = .next (setPend (s.cfg.cost.ldhAN - 1) (setReg .A v s)) := by
  simp only [loadHigh, h, done]

theorem loadHigh_of_fault {n : Byte} {r : Fault} {s : State} (h : memRead s (highPage n) = .error r) :
    loadHigh n s = .fault r := by
  simp only [loadHigh, h, raise]

/-- Settles O45: the read is one of the I/O window, which answers as what is attached does. -/
theorem highPageFetch : Obligations.HighPageFetch := by
  intro i n s hi hw
  have h : exec i s = loadHigh n s := exec_of_form hi s
  have hread : memRead s (highPage n) = ioRead s (highPage n) := memRead_io (region_highPage hw n)
  rw [h, ← highPage_eq_add]
  refine ⟨fun hio => ?_, fun readable hio hn => ?_, fun readable hio hn => ?_⟩
  · exact loadHigh_of_fault (hread.trans (ioRead_none hio _))
  · have hv := hread.trans (ioRead_readable hio (by rwa [lo_highPage]))
    exact ⟨_, hv, loadHigh_of_byte hv⟩
  · exact loadHigh_of_fault (hread.trans (ioRead_not_readable hio (by rwa [lo_highPage])))

end Sys2Proof.Machine

/-! PROOFS. The arithmetic family (44_alu.md): the two decrements, and the three operations of A with a register or an
immediate, which differ in their operand and their cost only. -/

namespace Sys2Proof.Machine

/-! ## What the family shares -/

/-- What an instruction that computes in registers only keeps: all of memory, beside the frame of `exec_frame`. -/
theorem exec_frame_of_no_store {i : Instr} {F : Form} {s t : State} (hi : i.form = F) (hF : onlyData F = true)
    (hstore : storedAddresses s F = []) (h : exec i s = .next t) :
    RegsKept (regsWritten F) s t ∧ t.sp = s.sp ∧ t.pc = s.pc ∧ t.ime = s.ime ∧
      t.pend = formCost s.cfg.cost false F - 1 ∧ SystemKept s t ∧ MemoryKept s t := by
  obtain ⟨hregs, hsp, hpc, hime, hpend, hsys⟩ := exec_frame hi hF h
  exact ⟨hregs, hsp, hpc, hime, hpend, hsys, exec_keeps_memory h (by rw [hi, hstore])⟩

/-- A flag set from a test against zero says whether the byte's value is zero. -/
theorem flag_setFlag_beq_zero (x : Flag) (v : Byte) (s : State) :
    (setFlag x (v == 0) s).flag x = true ↔ v.toNat = 0 := by
  rw [flag_setFlag, if_pos rfl, beq_iff_eq, byte_eq_zero_iff]

/-- `SetFlag` changes its own flag at most (R33). -/
theorem flagsKept_setFlag (x : Flag) (b : Bool) (s : State) : FlagsKept [x] s (setFlag x b s) := by
  refine ⟨fun y hy => ?_, setFlag_low s x b⟩
  rw [flag_setFlag, if_neg (List.ne_of_not_mem_cons hy)]

/-! ## Decrements -/

/-- One less, as a number modulo 256 (R7). -/
theorem byte_toNat_sub_one (v : Byte) : (v - 1).toNat = (v.toNat + 255) % 256 := by
  rw [BitVec.toNat_sub, Nat.add_comm]
  rfl

/-- Settles O46: the register and Z are written from the same difference, and R34's table gives H and C no value. -/
theorem decrementRegister : Obligations.DecrementRegister := by
  intro i r s hi
  have h : exec i s = .next (setPend (s.cfg.cost.decR - 1)
      (setFlag .N true (setFlag .Z (s.reg r - 1 == 0) (setReg r (s.reg r - 1) s)))) := exec_of_form hi s
  refine ⟨_, h, ?_, ?_, by simp, exec_keeps_flags hi h (fun x hx => ?_), exec_frame_of_no_store hi rfl rfl h⟩
  · simp only [reg_setPend, reg_setFlag, reg_setReg, if_true, byte_toNat_sub_one]
  · rw [← byte_eq_zero_iff]
    simp
  · cases x with
    | Z | N => exact absurd (by decide) hx
    | H | C => rfl

/-- Settles O47: the pair reads back the difference written to it, and no flag is touched. -/
theorem decrementPair : Obligations.DecrementPair := by
  intro i p s hi
  have h : exec i s = .next (setPend (s.cfg.cost.decRR - 1) (setPair p (s.pair p - 1) s)) := exec_of_form hi s
  obtain ⟨hregs, hrest⟩ := exec_frame_of_no_store hi rfl rfl h
  refine ⟨_, h, ?_, hregs, by simp, hrest⟩
  rw [pair_setPend, pair_setPair, toNat_sub_one]

/-! ## Operations of A with a register or an immediate -/

/-- The class makes the state `u` out of `s`, up to PEND, and writes the listed registers; it stores nothing and
transfers no control. -/
def ComputesTo (s u : State) (written : List Reg8) (F : Form) : Prop :=
  (∃ n, execForm s F = .next (setPend n u)) ∧ onlyData F = true ∧ storedAddresses s F = [] ∧
    regsWritten F = written

/-- An operation with a register form `R` and an immediate form `N` computes one function of its operand, whichever
the form. -/
theorem computesTo_of_operand {i : Instr} {s : State} {v : Byte} {R : Reg8 → Form} {N : Byte → Form}
    {op : Byte → State → State} {written : List Reg8} (hi : (∃ r, i.form = R r ∧ v = s.reg r) ∨ i.form = N v)
    (hR : ∀ r, ComputesTo s (op (s.reg r) s) written (R r)) (hN : ComputesTo s (op v s) written (N v)) :
    ComputesTo s (op v s) written i.form := by
  obtain ⟨r, hr, rfl⟩ | hn := hi
  · rw [hr]
    exact hR r
  · rw [hn]
    exact hN

/-- The answer of an instruction of such a class, with what it keeps. -/
theorem exec_of_computesTo {i : Instr} {s u : State} {written : List Reg8} (hi : ComputesTo s u written i.form) :
    ∃ t, exec i s = .next t ∧ (∃ n, t = setPend n u) ∧ RegsKept written s t ∧ t.sp = s.sp ∧ t.pc = s.pc ∧
      t.ime = s.ime ∧ t.pend = formCost s.cfg.cost false i.form - 1 ∧ SystemKept s t ∧ MemoryKept s t := by
  obtain ⟨⟨n, hn⟩, hdata, hstore, rfl⟩ := hi
  have h : exec i s = .next (setPend n u) := (exec_eq_execForm i s).trans hn
  exact ⟨_, h, ⟨n, rfl⟩, exec_frame_of_no_store rfl hdata hstore h⟩

/-- Settles O48: both forms run `xorAcc` on their operand. -/
theorem exclusiveOr : Obligations.ExclusiveOr := by
  intro i v s hi
  have hop : ComputesTo s (xorAcc v s) [.A] i.form :=
    computesTo_of_operand hi (fun _ => ⟨⟨_, rfl⟩, rfl, rfl, rfl⟩) ⟨⟨_, rfl⟩, rfl, rfl, rfl⟩
  obtain ⟨_, h, ⟨n, rfl⟩, hframe⟩ := exec_of_computesTo hop
  exact ⟨_, h, fun k _ => BitVec.getLsbD_xor, flag_setFlag_beq_zero .Z (s.a ^^^ v) _,
    flagsKept_setFlag .Z _ (setReg .A (s.a ^^^ v) s), hframe⟩

/-- Settles O49: both forms run `andAcc` on their operand, whose flags are R34's row. -/
theorem bitwiseAnd : Obligations.BitwiseAnd := by
  intro i v s hi
  have hop : ComputesTo s (andAcc v s) [.A] i.form :=
    computesTo_of_operand hi (fun _ => ⟨⟨_, rfl⟩, rfl, rfl, rfl⟩) ⟨⟨_, rfl⟩, rfl, rfl, rfl⟩
  obtain ⟨_, h, ⟨n, rfl⟩, hframe⟩ := exec_of_computesTo hop
  refine ⟨_, h, fun k _ => BitVec.getLsbD_and, ?_, flag_andAcc v s .N, flag_andAcc v s .H, flag_andAcc v s .C,
    (flagTable i s _ h).2, hframe⟩
  rw [flag_setPend, flag_andAcc, ← byte_eq_zero_iff]
  exact decide_eq_true_iff

/-- Settles O50: both forms run `cpAcc` on their operand, which writes Z from the comparison and nothing else. -/
theorem compare : Obligations.Compare := by
  intro i v s hi
  have hop : ComputesTo s (cpAcc v s) [] i.form :=
    computesTo_of_operand hi (fun _ => ⟨⟨_, rfl⟩, rfl, rfl, rfl⟩) ⟨⟨_, rfl⟩, rfl, rfl, rfl⟩
  obtain ⟨_, h, ⟨n, rfl⟩, hframe⟩ := exec_of_computesTo hop
  refine ⟨_, h, ?_, flagsKept_setFlag .Z _ s, hframe⟩
  rw [flag_setPend, flag_cpAcc, BitVec.toNat_inj]
  exact decide_eq_true_iff

end Sys2Proof.Machine

/-! PROOFS. NOP and the interrupt mask (45_system.md R190 to R193): each class makes its outcome whole, so the frame
is the equation itself. -/

namespace Sys2Proof.Machine

/-- Settles O51: the classes of NOP, DI and EI run `nopBody` and `setIme`, which write IME at once (decision D28) and
PEND. -/
theorem nopAndInterruptMask : Obligations.NopAndInterruptMask :=
  fun s => ⟨exec_of_form (F := .nop) rfl s, exec_of_form (F := .di) rfl s, exec_of_form (F := .ei) rfl s⟩

end Sys2Proof.Machine

/-! PROOFS. The exceptions family (60_exceptions.md): the fault that ends an executing tick, what its record says, and
the invariant of a session under the host's operations. -/

namespace Sys2Proof.Machine

/-! ## The fault that ends the tick (R207) -/

/-- Settles O7: the dispatch of a byte outside IMPL raises before any operand fetch. -/
theorem unimplementedOpcodeStops : Obligations.UnimplementedOpcodeStops :=
  fun _ _ hs hm hc => (step_ready hs).trans (fetchExecute_other hm hc)

theorem fetchExecute_opcode_fault {s : State} {r : Fault} (hr : memRead s s.pc = .error r) :
    fetchExecute s = .fault r := by
  simp only [fetchExecute, hr, raise]

/-- An instruction of two or more bytes has a row with an operand. -/
theorem lookup_of_two_le_length {i : Instr} (h : 2 ≤ i.length) :
    (∃ f, lookup i.opcode = some (.opN f)) ∨ ∃ f, lookup i.opcode = some (.opNN f) := by
  rw [length_eq_operands] at h
  obtain ⟨-, ho⟩ | ⟨f, n, hl, -, -⟩ | ⟨f, nn, hl, -, -⟩ := lookup_cases i
  · simp [ho] at h
  · exact .inl ⟨f, hl⟩
  · exact .inr ⟨f, hl⟩

/-- An instruction of three bytes has a row with a 16-bit operand. -/
theorem lookup_of_length_three {i : Instr} (h : i.length = 3) : ∃ f, lookup i.opcode = some (.opNN f) := by
  rw [length_eq_operands] at h
  obtain ⟨-, ho⟩ | ⟨f, n, -, ho, -⟩ | ⟨f, nn, hl, -, -⟩ := lookup_cases i
  · simp [ho] at h
  · simp [ho] at h
  · exact ⟨f, hl⟩

section
variable {s : State} {i : Instr} {r : Fault} (hm : memRead s s.pc = .ok i.opcode) (hi : i.wellFormed s.cfg = true)
include hm hi

theorem fetchExecute_first_operand_fault (hlen : 2 ≤ i.length) (hr : memRead s (s.pc + 1) = .error r) :
    fetchExecute s = .fault r := by
  obtain ⟨f, hl⟩ | ⟨f, hl⟩ := lookup_of_two_le_length hlen <;> simp only [fetchExecute_op hm hi, hl, hr]

theorem fetchExecute_second_operand_fault {v : Byte} (hlen : i.length = 3) (hv : memRead s (s.pc + 1) = .ok v)
    (hr : memRead s (s.pc + 2) = .error r) : fetchExecute s = .fault r := by
  obtain ⟨f, hl⟩ := lookup_of_length_three hlen
  simp only [fetchExecute_op hm hi, hl, hv, hr]

end

/-- Settles O8, one clause for each read of the fetch. -/
theorem fetchFaultsInOrder : Obligations.FetchFaultsInOrder :=
  ⟨fun _ _ hs hr => (step_ready hs).trans (fetchExecute_opcode_fault hr),
    fun _ _ _ hs hm hi hlen hr => (step_ready hs).trans (fetchExecute_first_operand_fault hm hi hlen hr),
    fun _ _ _ _ hs hm hi hlen hv hr => (step_ready hs).trans (fetchExecute_second_operand_fault hm hi hlen hv hr)⟩

/-! ## What the record says -/

/-- A byte without a row is outside the 113 bytes of R89. -/
theorem notMem_defaultImpl_of_lookup {op : Byte} (h : lookup op = none) : op ∉ defaultImpl := by
  rw [mem_defaultImpl_iff_lookup, h]
  exact nofun

/-- Settles O9: a step faults by a read, which raises one of two records, or at the dispatch of the byte at PC. -/
theorem faultRecordsAreAccurate : Obligations.FaultRecordsAreAccurate := by
  intro s r h
  obtain ⟨-, ⟨a, ha⟩ | ⟨op, rfl, hm, hop⟩⟩ := step_fault_cases h
  · obtain ⟨rfl, hv⟩ | ⟨rfl, hreg⟩ := memRead_error ha
    · exact ⟨nofun, nofun, fun _ => hv⟩
    · refine ⟨fun w hw => ?_, nofun, nofun⟩
      cases hw
      exact hreg
  · refine ⟨nofun, fun op' w hw => ?_, nofun⟩
    cases hw
    exact ⟨rfl, hm, hop.imp_right notMem_defaultImpl_of_lookup⟩

/-! ## The invariant of a session -/

/-- A cleared F meets the flag clause of the invariant (R32, R35). -/
theorem flagsOk_of_f_eq_zero {s : State} (h : s.f = 0) : FlagsOk s := by
  simp [FlagsOk, State.flag, h]

/-- Construction on a validated cartridge meets the invariant of the machine (R45). -/
theorem construct_inv {cv : Validator} (h : CartridgeOk cv) (cfg : Config) : Inv (construct cfg cv) :=
  ⟨⟨⟨.nil, nofun⟩, nofun⟩, flagsOk_of_f_eq_zero rfl, Nat.zero_le _, h⟩

/-- `reset` clears F, whatever a fault left in it, and keeps the rest of what the invariant speaks of (R231, R234). -/
theorem resetOp_inv {s : State} (h : LatchedInv s) : Inv (resetOp s) := by
  obtain ⟨hw, -, hp, hv⟩ := h
  exact ⟨hw, flagsOk_of_f_eq_zero rfl, hp, hv⟩

/-- `begin` starts from what `reset` leaves, and PEND is 0 or as it was (R232, R233). -/
theorem beginOp_inv {s : State} (h : LatchedInv s) : Inv (beginOp s) := by
  obtain ⟨hw, hf, hp, hv⟩ := resetOp_inv h
  unfold beginOp
  dsimp only
  split
  · exact ⟨hw, hf, Nat.zero_le _, hv⟩
  · exact ⟨hw, hf, hp, hv⟩

/-- A step keeps the invariant of a session: under a latched fault it changes nothing (R133). -/
theorem step_keeps_latchedInv {s t : State} (h : LatchedInv s) (ht : step s = .next t) : LatchedInv t := by
  cases hf : s.flt with
  | none => exact (stepKeepsInvariant s t (h.inv hf) ht).latched
  | some r =>
    obtain ⟨hb, -⟩ := step_next_cases ht
    cases (step_latched hb hf).symm.trans ht
    exact h

theorem hostTick_keeps_inv {s : State} {k : Nat} {y : Session} {r : Response} (h : LatchedInv s)
    (hy : hostTick s k = .answer y r) : SessionInv y := by
  unfold hostTick at hy
  split at hy
  · rename_i t ht
    cases hy
    exact step_keeps_latchedInv h ht
  · cases hy
    exact latchFault_inv h _ k
  · exact nomatch hy

/-- `begin` is always performed, its own fault included. -/
theorem hostBegin_answer {s : State} {k : Nat} {y : Session} {r : Response} (h : hostBegin s k = .answer y r) :
    y = .core (beginOp s) k := by
  unfold hostBegin at h
  split at h <;> cases h <;> rfl

/-- `validate` is performed on a buffer of ROM_LEN bytes only (R102). -/
theorem length_of_hostValidate_answer {cfg : Config} {cv : Validator} {bytes : List Byte} {y : Session} {r : Response}
    (h : hostValidate cfg cv bytes = .answer y r) : bytes.length = romLen := by
  obtain ⟨rfl, -⟩ := hostValidate_answer h
  by_contra hlen
  simp [hostValidate, hlen] at h

/-- What a successful `validate` of a buffer of ROM_LEN bytes stores is a validated cartridge (R104). -/
theorem cartridgeOk_of_validate {bytes : List Byte} {c : Cartridge} (hlen : bytes.length = romLen)
    (hc : validate (Image.ofBytes bytes) = .ok c) : CartridgeOk (.loaded c) := by
  rintro _ ⟨⟩
  have hrom : c.rom = cellsFrom 0 bytes := by
    obtain ⟨-, -, -, rfl⟩ := validate_ok_iff.mp hc
    rfl
  have himg : Image.ofBytes bytes = ⟨romLen, c.rom⟩ := by rw [Image.ofBytes, hlen, hrom]
  refine ⟨hrom ▸ cellsFrom_wf bytes 0, fun x hx => ?_, himg ▸ hc⟩
  obtain ⟨-, hlt⟩ := cellsFrom_bounds bytes 0 x (hrom ▸ hx)
  omega

theorem hostValidate_keeps_inv {cfg : Config} {cv : Validator} {bytes : List Byte} {y : Session} {r : Response}
    (h : hostValidate cfg cv bytes = .answer y r) : SessionInv y := by
  obtain ⟨-, ⟨c, hc, rfl, -⟩ | ⟨e, -, rfl, -⟩⟩ := hostValidate_answer h
  · exact cartridgeOk_of_validate (length_of_hostValidate_answer h) hc
  · exact nofun

/-- After a performed `reset` or `begin` the machine meets the whole invariant (R210). -/
theorem inv_of_reset_or_begin {op : HostOp} {x y : Session} {r : Response} (hop : op = .reset ∨ op = .begin)
    (hx : SessionInv x) (h : hostStep op x = .answer y r) : ∃ t k, y = .core t k ∧ Inv t := by
  cases x with
  | noCore cfg cv => obtain rfl | rfl := hop <;> exact nomatch h
  | core s k =>
    obtain rfl | rfl := hop
    · cases h
      exact ⟨_, k, rfl, resetOp_inv hx⟩
    · exact ⟨_, k, hostBegin_answer h, beginOp_inv hx⟩

/-- Every performed operation keeps the invariant of a session. -/
theorem hostStep_keeps_inv {op : HostOp} {x y : Session} {r : Response} (hx : SessionInv x)
    (h : hostStep op x = .answer y r) : SessionInv y := by
  cases op with
  | validate bytes =>
    obtain ⟨cfg, cv, -, hv⟩ := hostStep_validate_answer h
    exact hostValidate_keeps_inv hv
  | construct =>
    cases x with
    | noCore cfg cv => cases h; exact (construct_inv hx cfg).latched
    | core s k => exact nomatch h
  | reset =>
    obtain ⟨t, k, rfl, ht⟩ := inv_of_reset_or_begin (.inl rfl) hx h
    exact ht.latched
  | begin =>
    obtain ⟨t, k, rfl, ht⟩ := inv_of_reset_or_begin (.inr rfl) hx h
    exact ht.latched
  | tick =>
    cases x with
    | noCore cfg cv => exact nomatch h
    | core s k => exact hostTick_keeps_inv hx h

/-- Settles O19: a new session holds no cartridge, each operation keeps the invariant, and the two ways out of a fault
clear F. -/
theorem hostOperationsKeepInvariant : Obligations.HostOperationsKeepInvariant := by
  refine ⟨fun _ => nofun, fun _ _ _ _ => hostStep_keeps_inv, fun op x t k r hop hx h => ?_⟩
  obtain ⟨t', k', hy, ht⟩ := inv_of_reset_or_begin hop hx h
  cases hy
  exact ht

end Sys2Proof.Machine

/-! PROOFS. The reset family (70_reset_and_hazards.md): what `reset` and `begin` make of the state, what a read of memory
sees after them, and the tick before any `begin`. -/

namespace Sys2Proof.Machine

/-! ## `reset` -/

@[simp] theorem reg_resetOp (s : State) (r : Reg8) : (resetOp s).reg r = 0 := by
  cases r <;> rfl

/-- `reset` changes nothing that a read of memory looks at (R234). -/
@[simp] theorem memRead_resetOp (s : State) (w : Word) : memRead (resetOp s) w = memRead s w :=
  memRead_congr rfl rfl rfl rfl w

/-- Settles O21: of the 8-bit registers by `reg_resetOp`; every other field is the one `reset` writes or leaves. -/
theorem resetSetsPowerOnValues : Obligations.ResetSetsPowerOnValues :=
  fun s => ⟨reg_resetOp s, rfl, rfl, rfl, rfl, rfl, rfl, rfl, rfl, rfl, rfl, rfl⟩

/-! ## `begin` -/

@[simp] theorem reg_beginOp (s : State) (r : Reg8) : (beginOp s).reg r = 0 := by
  obtain ⟨-, -, -, -, hreg⟩ := beginOp_keeps s
  exact hreg r

/-- `begin` changes nothing that a read of memory looks at (R234), whether or not a cartridge is loaded. -/
@[simp] theorem memRead_beginOp (s : State) (w : Word) : memRead (beginOp s) w = memRead s w := by
  obtain ⟨hwram, hcfg, hcv, hdev, -⟩ := beginOp_keeps s
  exact memRead_congr hwram hcv hcfg hdev w

theorem beginOp_of_startVector {s : State} {v : Word} (h : startVector s.cv = .ok v) :
    beginOp s = { resetOp s with pc := v, pend := 0, begun := true } := by
  have hreset : startVector (resetOp s).cv = .ok v := h
  simp only [beginOp, hreset]

theorem beginOp_of_startVector_fault {s : State} {r : Fault} (h : startVector s.cv = .error r) :
    beginOp s = { resetOp s with flt := some r, begun := true } := by
  have hreset : startVector (resetOp s).cv = .error r := h
  simp only [beginOp, hreset]

/-- Without a cartridge there is no start vector to read (R110, R113). -/
theorem startVector_notLoaded {v : Validator} (h : v.isLoaded = false) :
    startVector v = .error .cartridgeNotLoaded := by
  simp only [startVector, cartRead16, cartRead8_notLoaded h]

/-- START of a validated cartridge is the word of its image at 0x102, low byte first (R104, R113). -/
theorem CartridgeOk.start_eq {c : Cartridge} (h : CartridgeOk (.loaded c)) :
    c.start = cat (c.rom.read 0x103) (c.rom.read 0x102) := by
  obtain ⟨-, -, hvalid⟩ := h c rfl
  obtain ⟨-, -, -, hc⟩ := validate_ok_iff.mp hvalid
  exact congrArg Cartridge.start hc

/-- Settles O23: the start vector of a loaded cartridge is defined, and `validate` stored the same word. -/
theorem beginStartsAtStartVector : Obligations.BeginStartsAtStartVector := by
  intro s c hs
  have hbegin := beginOp_of_startVector ((congrArg startVector hs).trans (startVector_loaded c))
  refine ⟨hbegin, ready_beginOp (congrArg Validator.isLoaded hs), fun hok => ?_⟩
  rw [hs] at hok
  rw [hbegin, hok.start_eq]

/-- Settles O24: reading the start vector faults, and a tick under the latched fault changes nothing (R133). -/
theorem beginWithoutCartridgeLatches : Obligations.BeginWithoutCartridgeLatches := by
  intro s hs
  have hbegin := beginOp_of_startVector_fault (startVector_notLoaded hs)
  refine ⟨hbegin, ?_, ?_, ?_⟩
  · rw [hbegin]; rfl
  · rw [hbegin]; rfl
  · rw [hbegin]
    exact step_latched rfl rfl

/-! ## Working Memory across both, and the tick before `begin` -/

/-- Settles O25: a read sees nothing that `reset` or `begin` changes, and both clear the registers. -/
theorem workingMemorySurvivesReset : Obligations.WorkingMemorySurvivesReset := by
  intro s w v hw
  have hstored : memRead (memWrite w v s) w = .ok v := memRead_memWrite_same hw v
  exact ⟨(memRead_resetOp _ w).trans hstored, (memRead_beginOp _ w).trans hstored, memRead_resetOp s w,
    memRead_beginOp s w, fun r => ⟨reg_resetOp s r, reg_beginOp s r⟩⟩

/-- Settles O12: `tick` asks for `begun` before anything else (R240). -/
theorem tickBeforeBeginIsRefused : Obligations.TickBeforeBeginIsRefused :=
  fun _ => step_refused

end Sys2Proof.Machine
